-- ==== Sys2Proof/Word.lean ====
section
/-! DEFINITION. The words, the ports and the fixed-size tables the whole model uses, with their plainest operations. -/

namespace Sys2Proof

/-- One byte on a link or in a buffer. -/
abbrev Byte := BitVec 8
/-- A 16-bit value: a label, a cycle number, a saturating counter. -/
abbrev Half := BitVec 16
/-- A time base value in µs (R78). -/
abbrev Time := BitVec 32

/-- The four ports (00_scope.md, "Terms"). -/
inductive Port where
  | p0 | p1 | p2 | p3
  deriving DecidableEq, Repr

/-- The ports in ascending order, the order the rules name wherever they name one. -/
def Port.all : List Port := [.p0, .p1, .p2, .p3]

/-- The number of a port, 0 to 3 (R178). -/
def Port.toNat : Port → Nat
  | .p0 => 0
  | .p1 => 1
  | .p2 => 2
  | .p3 => 3

/-- One value for each port. -/
structure PerPort (α : Type) where
  p0 : α
  p1 : α
  p2 : α
  p3 : α
  deriving DecidableEq, Repr

/-- The same value at every port. -/
def PerPort.fill {α : Type} (a : α) : PerPort α := ⟨a, a, a, a⟩

/-- The value at a port. -/
def PerPort.get {α : Type} (t : PerPort α) : Port → α
  | .p0 => t.p0
  | .p1 => t.p1
  | .p2 => t.p2
  | .p3 => t.p3

/-- The table with one port's value replaced. -/
def PerPort.set {α : Type} (t : PerPort α) (p : Port) (a : α) : PerPort α :=
  match p with
  | .p0 => ⟨a, t.p1, t.p2, t.p3⟩
  | .p1 => ⟨t.p0, a, t.p2, t.p3⟩
  | .p2 => ⟨t.p0, t.p1, a, t.p3⟩
  | .p3 => ⟨t.p0, t.p1, t.p2, a⟩

/-- The table with one port's value passed through a function. -/
def PerPort.modify {α : Type} (t : PerPort α) (p : Port) (f : α → α) : PerPort α := t.set p (f (t.get p))

/-- A table given by a value for each port. -/
def PerPort.ofFn {α : Type} (f : Port → α) : PerPort α := ⟨f .p0, f .p1, f .p2, f .p3⟩

/-- The sum of a number over the four ports. -/
def Port.sum (f : Port → Nat) : Nat := f .p0 + f .p1 + f .p2 + f .p3

/-- A set of ports: for each port, whether it is in the set. -/
abbrev PortSet := PerPort Bool

/-- The ports of a set in ascending order. -/
def PortSet.toList (t : PortSet) : List Port := Port.all.filter t.get

/-- A table of fixed size. -/
abbrev Tbl (n : Nat) (α : Type) := Vector α n

/-- The entry of a table at an index. -/
def Tbl.at {n : Nat} {α : Type} (t : Tbl n α) (i : Fin n) : α := Vector.get t i

/-- The table with one entry replaced. -/
def Tbl.put {n : Nat} {α : Type} (t : Tbl n α) (i : Fin n) (a : α) : Tbl n α := Vector.set t i.val a i.isLt

/-- The same entry at every index. -/
def Tbl.fill (n : Nat) {α : Type} (a : α) : Tbl n α := Vector.replicate n a

/-- Descriptor number, 0 to 255 (R1). -/
abbrev DescId := Fin 256
/-- Buffer number, 0 to 511 (R7). -/
abbrev BufId := Fin 512
/-- Lane number, 0 to 31 (02_lanes.md, 2.1). -/
abbrev LaneId := Fin 32
/-- Calendar entry index, 0 to 255 (03_calendar_banks.md, 3.1). -/
abbrev EntryId := Fin 256
/-- Lease slot number, 0 to 3 (R105). -/
abbrev SlotId := Fin 4

end Sys2Proof
end

