-- ==== Sys2Proof/Syntax.lean ====
section
/-! DEFINITION. The commands and happenings of the part: one constructor of `Instr` per row of spec/opcode_table.json. -/

namespace Sys2Proof

/-- A command or happening. A command of Table 11-14 carries the port whose link it was taken on and its payload bytes
as Chapter 11 lays them out (R178); a link happening carries its port; a time-driven happening carries what it concerns. -/
inductive Instr where
  /-- RESET_N goes low (R79). -/
  | resetNAssert
  /-- RESET_N is released while PEN0 to PEN3 stand as given (R148). -/
  | resetNRelease (straps : PortSet)
  /-- REFCLK stops (R78). -/
  | refclkStop
  /-- REFCLK resumes (R78). -/
  | refclkResume
  /-- CS_N of a link falls (R166). -/
  | csNFall (p : Port)
  /-- CS_N of a link rises, after that many complete bytes of the window (R169). -/
  | csNRise (p : Port) (bytes : Nat)
  /-- The four header bytes of a request are received and give that length, above 272 (R167). -/
  | lengthAbove272 (p : Port) (code tag : Byte) (length : Nat)
  /-- The last CRC byte of a request is received (R168, R170). -/
  | requestReceived (p : Port) (code tag : Byte) (payload : List Byte) (crc : Half)
  /-- The owning block's answer returns to the link (R170). -/
  | executionEnd (p : Port)
  /-- The last CRC byte of the response has been clocked out (R166). -/
  | responseSent (p : Port)
  | status (p : Port) (payload : List Byte)
  | repeatLast (p : Port) (payload : List Byte)
  | portReset (p : Port) (payload : List Byte)
  | readCounters (p : Port) (payload : List Byte)
  | setQuota (p : Port) (payload : List Byte)
  | setRxq (p : Port) (payload : List Byte)
  | setLease (p : Port) (payload : List Byte)
  | setDeadline (p : Port) (payload : List Byte)
  | setFrame (p : Port) (payload : List Byte)
  | ready (p : Port) (payload : List Byte)
  | unready (p : Port) (payload : List Byte)
  | join (p : Port) (payload : List Byte)
  | leave (p : Port) (payload : List Byte)
  | openLane (p : Port) (payload : List Byte)
  | closeLane (p : Port) (payload : List Byte)
  | purgeLane (p : Port) (payload : List Byte)
  | laneInfo (p : Port) (payload : List Byte)
  | send (p : Port) (payload : List Byte)
  | fetch (p : Port) (payload : List Byte)
  | reread (p : Port) (payload : List Byte)
  | ack (p : Port) (payload : List Byte)
  | returnLease (p : Port) (payload : List Byte)
  | getReport (p : Port) (payload : List Byte)
  | readEntry (p : Port) (payload : List Byte)
  | claim (p : Port) (payload : List Byte)
  | writeEntry (p : Port) (payload : List Byte)
  | clearEntry (p : Port) (payload : List Byte)
  | disown (p : Port) (payload : List Byte)
  | readHeader (p : Port) (payload : List Byte)
  | propose (p : Port) (payload : List Byte)
  | vote (p : Port) (payload : List Byte)
  | withdraw (p : Port) (payload : List Byte)
  | planStatus (p : Port) (payload : List Byte)
  | getEvents (p : Port) (payload : List Byte)
  | clearEvents (p : Port) (payload : List Byte)
  | setEventMask (p : Port) (payload : List Byte)
  /-- The time base reaches the next slot start (R81). -/
  | slotStart
  /-- The time base reaches the deadline of a HELD lease slot (R118). -/
  | leaseExpiry (p : Port) (n : SlotId)
  /-- Eight µs after a cycle boundary (R85). -/
  | syncOutPulseEnd
  deriving DecidableEq, Repr

end Sys2Proof
end

