-- ==== Sys2Proof/Decode.lean ====
section
/-! DEFINITION. The command codes of Table 11-14, read both ways, and the host's `decodeTableWord`. No row of
spec/opcode_table.json has bits, so no word spells a command; a command reaches the part as a request frame
(Table 11-12), whose command byte is read here. -/

namespace Sys2Proof

/-- The command of Table 11-14 an `Instr` is, as its port, its command code and its payload; none for the other happenings. -/
def Instr.command? : Instr → Option (Port × Byte × List Byte)
  | .status p pl => some (p, 0x01, pl)
  | .repeatLast p pl => some (p, 0x02, pl)
  | .portReset p pl => some (p, 0x03, pl)
  | .readCounters p pl => some (p, 0x04, pl)
  | .setQuota p pl => some (p, 0x10, pl)
  | .setRxq p pl => some (p, 0x11, pl)
  | .setLease p pl => some (p, 0x12, pl)
  | .setDeadline p pl => some (p, 0x13, pl)
  | .setFrame p pl => some (p, 0x14, pl)
  | .ready p pl => some (p, 0x18, pl)
  | .unready p pl => some (p, 0x19, pl)
  | .join p pl => some (p, 0x1A, pl)
  | .leave p pl => some (p, 0x1B, pl)
  | .openLane p pl => some (p, 0x20, pl)
  | .closeLane p pl => some (p, 0x21, pl)
  | .purgeLane p pl => some (p, 0x22, pl)
  | .laneInfo p pl => some (p, 0x23, pl)
  | .send p pl => some (p, 0x30, pl)
  | .fetch p pl => some (p, 0x31, pl)
  | .reread p pl => some (p, 0x32, pl)
  | .ack p pl => some (p, 0x33, pl)
  | .returnLease p pl => some (p, 0x34, pl)
  | .getReport p pl => some (p, 0x35, pl)
  | .readEntry p pl => some (p, 0x40, pl)
  | .claim p pl => some (p, 0x41, pl)
  | .writeEntry p pl => some (p, 0x42, pl)
  | .clearEntry p pl => some (p, 0x43, pl)
  | .disown p pl => some (p, 0x44, pl)
  | .readHeader p pl => some (p, 0x45, pl)
  | .propose p pl => some (p, 0x48, pl)
  | .vote p pl => some (p, 0x49, pl)
  | .withdraw p pl => some (p, 0x4A, pl)
  | .planStatus p pl => some (p, 0x4B, pl)
  | .getEvents p pl => some (p, 0x50, pl)
  | .clearEvents p pl => some (p, 0x51, pl)
  | .setEventMask p pl => some (p, 0x52, pl)
  | .resetNAssert => none
  | .resetNRelease _ => none
  | .refclkStop => none
  | .refclkResume => none
  | .csNFall _ => none
  | .csNRise _ _ => none
  | .lengthAbove272 _ _ _ _ => none
  | .requestReceived _ _ _ _ _ => none
  | .executionEnd _ => none
  | .responseSent _ => none
  | .slotStart => none
  | .leaseExpiry _ _ => none
  | .syncOutPulseEnd => none

/-- The command that a taken request of port `p` hands to its owning block, by Table 11-14; none for a code that is not
in the table (R171). -/
def commandOf (p : Port) (code : Byte) (payload : List Byte) : Option Instr :=
  if code = 0x01 then some (.status p payload)
  else if code = 0x02 then some (.repeatLast p payload)
  else if code = 0x03 then some (.portReset p payload)
  else if code = 0x04 then some (.readCounters p payload)
  else if code = 0x10 then some (.setQuota p payload)
  else if code = 0x11 then some (.setRxq p payload)
  else if code = 0x12 then some (.setLease p payload)
  else if code = 0x13 then some (.setDeadline p payload)
  else if code = 0x14 then some (.setFrame p payload)
  else if code = 0x18 then some (.ready p payload)
  else if code = 0x19 then some (.unready p payload)
  else if code = 0x1A then some (.join p payload)
  else if code = 0x1B then some (.leave p payload)
  else if code = 0x20 then some (.openLane p payload)
  else if code = 0x21 then some (.closeLane p payload)
  else if code = 0x22 then some (.purgeLane p payload)
  else if code = 0x23 then some (.laneInfo p payload)
  else if code = 0x30 then some (.send p payload)
  else if code = 0x31 then some (.fetch p payload)
  else if code = 0x32 then some (.reread p payload)
  else if code = 0x33 then some (.ack p payload)
  else if code = 0x34 then some (.returnLease p payload)
  else if code = 0x35 then some (.getReport p payload)
  else if code = 0x40 then some (.readEntry p payload)
  else if code = 0x41 then some (.claim p payload)
  else if code = 0x42 then some (.writeEntry p payload)
  else if code = 0x43 then some (.clearEntry p payload)
  else if code = 0x44 then some (.disown p payload)
  else if code = 0x45 then some (.readHeader p payload)
  else if code = 0x48 then some (.propose p payload)
  else if code = 0x49 then some (.vote p payload)
  else if code = 0x4A then some (.withdraw p payload)
  else if code = 0x4B then some (.planStatus p payload)
  else if code = 0x50 then some (.getEvents p payload)
  else if code = 0x51 then some (.clearEvents p payload)
  else if code = 0x52 then some (.setEventMask p payload)
  else none

/-- No row of the table has bits: no word spells a command. -/
def decodeTableWord (_nbits _w : Nat) : Option Instr := none

end Sys2Proof
end

