-- ==== Sys2Proof/Machine/State.lean ====
section
/-! DEFINITION. The state of the part: every record, queue, table, counter, register and pin the spec names, block by
block, and the values they hold right after reset. -/

namespace Sys2Proof.Machine

open Sys2Proof

/-! ## Membership Controller -/

/-- Exchange state (R149). -/
inductive Exchange where
  | setup | run
  deriving DecidableEq, Repr

/-- Port state (Table 10-2). A port holds a READY mark exactly while its state is `ready`. -/
inductive PortState where
  | disabled | offline | ready | online
  deriving DecidableEq, Repr

/-- The per-port setup parameters (Table 10-3). -/
structure Params where
  reserve : Nat
  ceiling : Nat
  depth : Nat
  watermark : Nat
  /-- lease time in ms -/
  leaseTime : Nat
  redelivery : Nat
  deriving DecidableEq, Repr

/-- The defaults of Table 10-3. -/
def Params.default : Params :=
  { reserve := 0, ceiling := 128, depth := 16, watermark := 1, leaseTime := 100, redelivery := 2 }

/-- Membership Controller. -/
structure Mbc where
  exchange : Exchange
  ports : PerPort PortState
  params : PerPort Params
  /-- proposal deadline in cycle boundaries -/
  deadline : Nat
  deriving DecidableEq, Repr

/-- R148, R151: what the release of RESET_N leaves, for the straps sampled at it. -/
def Mbc.reset (straps : PortSet) : Mbc :=
  { exchange := .setup
    ports := PerPort.ofFn fun p => if straps.get p then .offline else .disabled
    params := PerPort.fill Params.default
    deadline := 4 }

/-! ## Message Store -/

/-- Delivery state of one port in one descriptor (Table 1-3). -/
inductive Delivery where
  | notDest | waiting | queued | leased | delivered | missed | expired | abandoned
  deriving DecidableEq, Repr

/-- Report mode of a lane (Table 2-1). -/
inductive ReportMode where
  | none | failures | all
  deriving DecidableEq, Repr

/-- Release stamp (R3). -/
structure Stamp where
  cycle : Half
  slot : BitVec 8
  deriving DecidableEq, Repr

/-- State of a descriptor that is not FREE (R1). -/
inductive DescState where
  | pending | released
  deriving DecidableEq, Repr

/-- A descriptor that is not FREE (Table 1-1). -/
structure Desc where
  state : DescState
  source : Port
  lane : LaneId
  label : Half
  length : Nat
  fragments : List BufId
  reportMode : ReportMode
  submitCycle : Half
  stamp : Option Stamp
  dest : PortSet
  delivery : PerPort Delivery
  attempts : PerPort Nat
  outstanding : Nat
  deriving DecidableEq, Repr

/-- The three refusal counters of a port (R13). -/
structure Refusals where
  descriptor : Half
  quota : Half
  pool : Half
  deriving DecidableEq, Repr

/-- The buffer pool: byte `j` of buffer `b` at key `64 * b + j`, as rising cells none of which holds what an unlisted
byte reads as. -/
abbrev Memory := List Host.Cell

/-- Message Store. A descriptor that is FREE is `none`: its other fields carry no meaning (R1). -/
structure Mst where
  desc : Tbl 256 (Option Desc)
  pool : Memory
  free : List BufId
  held : PerPort Nat
  refusals : PerPort Refusals
  deriving DecidableEq, Repr

/-- R17. The pool itself is not set by reset. -/
def Mst.reset (pool : Memory) : Mst :=
  { desc := Tbl.fill 256 none
    pool := pool
    free := List.finRange 512
    held := PerPort.fill 0
    refusals := PerPort.fill ⟨0, 0, 0⟩ }

/-! ## Lane Unit -/

/-- Lane state (R22). -/
inductive LaneState where
  | closed | opened | draining
  deriving DecidableEq, Repr

/-- Full policy (Table 2-1). -/
inductive Policy where
  | miss | hold
  deriving DecidableEq, Repr

/-- A lane's settings (R21). -/
structure LaneSettings where
  owner : Port
  dest : PortSet
  depth : Nat
  policy : Policy
  reportMode : ReportMode
  maxAge : Nat
  deriving DecidableEq, Repr

/-- The six lane counters (R24). -/
structure LaneCounters where
  sent : Half
  released : Half
  missed : Half
  stale : Half
  heldSlots : Half
  idleSlots : Half
  deriving DecidableEq, Repr

/-- All six lane counters at 0. -/
def LaneCounters.zero : LaneCounters := ⟨0, 0, 0, 0, 0, 0⟩

/-- A lane record (Table 2-1). -/
structure Lane where
  state : LaneState
  settings : Option LaneSettings
  queue : List DescId
  counters : LaneCounters
  deriving DecidableEq, Repr

/-- R40: a lane right after reset. -/
def Lane.reset : Lane := { state := .closed, settings := none, queue := [], counters := LaneCounters.zero }

/-! ## Calendar Store -/

/-- Bank header (Table 3-1). -/
structure Header where
  slots : Nat
  /-- slot length in µs -/
  length : Nat
  deriving DecidableEq, Repr

/-- The default header: 16 slots of 1000 µs. -/
def Header.default : Header := ⟨16, 1000⟩

/-- What a RELEASE entry names. -/
structure Release where
  lane : LaneId
  burst : Nat
  deriving DecidableEq, Repr

/-- A calendar entry (Table 3-2): `release` is none for kind EMPTY, `owner` none for NONE. -/
structure Entry where
  release : Option Release
  owner : Option Port
  deriving DecidableEq, Repr

/-- EMPTY with owner NONE. -/
def Entry.unowned : Entry := ⟨none, none⟩

/-- A calendar bank. -/
structure Bank where
  header : Header
  entries : Tbl 256 Entry
  deriving DecidableEq, Repr

/-- R43: a bank right after reset. -/
def Bank.reset : Bank := { header := Header.default, entries := Tbl.fill 256 Entry.unowned }

/-- The letter of a bank. -/
inductive BankId where
  | a | b
  deriving DecidableEq, Repr

/-- The other bank. -/
def BankId.other : BankId → BankId
  | .a => .b
  | .b => .a

/-- Calendar Store. -/
structure Cal where
  bankA : Bank
  bankB : Bank
  active : BankId
  deriving DecidableEq, Repr

/-- The bank of a letter. -/
def Cal.bank (c : Cal) : BankId → Bank
  | .a => c.bankA
  | .b => c.bankB

/-- The store with one bank replaced. -/
def Cal.setBank (c : Cal) (i : BankId) (b : Bank) : Cal :=
  match i with
  | .a => { c with bankA := b }
  | .b => { c with bankB := b }

/-- The active bank (R42). -/
def Cal.activeBank (c : Cal) : Bank := c.bank c.active

/-- The shadow bank (R42). -/
def Cal.shadow (c : Cal) : Bank := c.bank c.active.other

/-- The store with the shadow bank replaced. -/
def Cal.setShadow (c : Cal) (b : Bank) : Cal := c.setBank c.active.other b

/-- The store with the active bank replaced. -/
def Cal.setActive (c : Cal) (b : Bank) : Cal := c.setBank c.active b

/-- R43. -/
def Cal.reset : Cal := { bankA := Bank.reset, bankB := Bank.reset, active := .a }

/-! ## Plan Coordinator -/

/-- State of a standing proposal; NONE is the absence of a proposal (R59). -/
inductive ProposalState where
  | opened | accepted
  deriving DecidableEq, Repr

/-- A standing proposal (Table 4-1): `yes` is the set of voters whose vote is YES. -/
structure Proposal where
  state : ProposalState
  number : BitVec 8
  proposer : Port
  voters : PortSet
  yes : PortSet
  remaining : Nat
  deriving DecidableEq, Repr

/-- Outcome and cause of a decided proposal (Table 4-3). -/
inductive PlanOutcome where
  | applied
  | rejected (port : Port)
  | lapsedDeadline
  | lapsedMemberLeft
  | withdrawnByProposer
  | withdrawnProposerLeft
  deriving DecidableEq, Repr

/-- The last-outcome record (R61). -/
structure LastOutcome where
  number : BitVec 8
  outcome : PlanOutcome
  deriving DecidableEq, Repr

/-- Plan Coordinator. -/
structure Plan where
  proposal : Option Proposal
  last : Option LastOutcome
  nextNumber : BitVec 8
  deriving DecidableEq, Repr

/-- R59, R60, R61. -/
def Plan.reset : Plan := { proposal := none, last := none, nextNumber := 1 }

/-! ## Cycle Timer -/

/-- Timer state (R79). -/
inductive TimerState where
  | stopped | running
  deriving DecidableEq, Repr

/-- Cycle Timer (Table 5-1). -/
structure Timer where
  timeBase : Time
  state : TimerState
  cycle : Half
  slot : BitVec 8
  header : Header
  /-- next slot start; held only while RUNNING -/
  nextSlot : Option Time
  /-- SYNC_OUT is high -/
  syncOut : Bool
  /-- when the SYNC_OUT pulse in progress ends (R85) -/
  syncEnd : Option Time
  deriving DecidableEq, Repr

/-- R78, R79. -/
def Timer.reset : Timer :=
  { timeBase := 0, state := .stopped, cycle := 0, slot := 0, header := Header.default,
    nextSlot := none, syncOut := false, syncEnd := none }

/-! ## Receive Unit -/

/-- Cause of a lease's end (Table 7-2). -/
inductive EndCause where
  | settled | expired
  deriving DecidableEq, Repr

/-- The lease a HELD slot holds. -/
structure Lease where
  desc : DescId
  deadline : Time
  deriving DecidableEq, Repr

/-- The most recent lease of a slot to end (R105). -/
structure LastEnd where
  generation : BitVec 4
  cause : EndCause
  deriving DecidableEq, Repr

/-- A lease slot (Table 7-2): FREE when `lease` is none. -/
structure LeaseSlot where
  lease : Option Lease
  generation : BitVec 4
  lastEnd : Option LastEnd
  deriving DecidableEq, Repr

/-- R106: a lease slot right after reset. -/
def LeaseSlot.reset : LeaseSlot := { lease := none, generation := 0, lastEnd := none }

/-- Receive state of one port (Table 7-1). -/
structure Rx where
  queue : List DescId
  slots : Tbl 4 LeaseSlot
  rxMissed : Half
  leaseExpiries : Half
  deliveriesExpired : Half
  deriving DecidableEq, Repr

/-- R106, R123. -/
def Rx.reset : Rx :=
  { queue := [], slots := Tbl.fill 4 LeaseSlot.reset, rxMissed := 0, leaseExpiries := 0, deliveriesExpired := 0 }

/-! ## Report Unit -/

/-- Message outcome (R128). -/
inductive MsgOutcome where
  | complete | partly | failed | stale | purged
  deriving DecidableEq, Repr

/-- A report record (Table 8-3). -/
structure Report where
  desc : DescId
  lane : LaneId
  label : Half
  outcome : MsgOutcome
  finalStates : PerPort Delivery
  submitCycle : Half
  stamp : Option Stamp
  attempts : Nat
  deriving DecidableEq, Repr

/-- Report state of one port (R126). -/
structure Rpt where
  queue : List Report
  lost : Half
  deriving DecidableEq, Repr

/-- R126. -/
def Rpt.reset : Rpt := { queue := [], lost := 0 }

/-! ## Attention Unit -/

/-- The twelve event kinds (Table 9-2). -/
inductive EventKind where
  | rxReady | leaseExpired | deliveryExpired | reportReady | reportLost | laneClosed
  | planOpened | planDecided | memberChange | readyCleared | exchangeRun | linkError
  deriving DecidableEq, Repr

/-- A set of event kinds: bit n for kind number n. -/
abbrev EventSet := BitVec 12

/-- A snapshot (R140). -/
structure Snapshot where
  number : BitVec 8
  kinds : EventSet
  deriving DecidableEq, Repr

/-- Attention state of one port (Table 9-1). -/
structure Att where
  latched : EventSet
  renewed : EventSet
  mask : EventSet
  snapshot : Option Snapshot
  nextSnapshot : BitVec 8
  /-- ATTN_N is low -/
  attnLow : Bool
  deriving DecidableEq, Repr

/-- Every kind except LINK_ERROR, which has number 11 (R142). -/
def EventSet.defaultMask : EventSet := 0x7FF

/-- R146. -/
def Att.reset : Att :=
  { latched := 0, renewed := 0, mask := EventSet.defaultMask, snapshot := none, nextSnapshot := 1, attnLow := false }

/-! ## Host Link Unit -/

/-- Status of a response (Table 11-15). -/
inductive Status where
  | ok | crcError | badCommand | badLength | badArgument | wrongState | notMember | notOwner | noDescriptor | quota
  | pool | laneFull | laneState | laneScheduled | inPlan | empty | noLeaseSlot | badLease | late | frozen
  | taken | planInvalid | planBusy | noProposal | staleNumber | notVoter | voteConflict | limit | staleSnapshot
  deriving DecidableEq, Repr

/-- A well-formed request (Table 11-12). -/
structure Request where
  code : Byte
  tag : Byte
  payload : List Byte
  deriving DecidableEq, Repr

/-- A response frame (Table 11-13), its flags apart. -/
structure Response where
  status : Status
  tag : Byte
  replay : Bool
  attention : Bool
  run : Bool
  payload : List Byte
  deriving DecidableEq, Repr

/-- What the owning block returns to the link: a status with a payload (R170), or, for REPEAT, the stored response (R175). -/
inductive Answer where
  | reply (status : Status) (payload : List Byte)
  | stored (r : Response)
  deriving DecidableEq, Repr

/-- An answer with the RUN flag of its response, which is the exchange state right after the command has acted (R149, R155,
R158, R160). See log 12. -/
structure Formed where
  answer : Answer
  run : Bool
  deriving DecidableEq, Repr

/-- Window state (Table 11-1). -/
inductive Window where
  | idle | receiving | discarding | awaiting | sending | done
  deriving DecidableEq, Repr

/-- The link record (Table 11-1): last taken tag and command, and last response. -/
structure LinkRecord where
  tag : Byte
  code : Byte
  response : Response
  deriving DecidableEq, Repr

/-- State of one Host Link Unit (Table 11-1). The execution state is NONE when `executing` is none, EXECUTING when it is
held, and EXECUTING with one WAITING when `waiting` is held too. -/
structure Link where
  /-- CS_N is low -/
  csLow : Bool
  window : Window
  executing : Option Request
  waiting : Option Request
  /-- the owning block's answer to the executing request, with its RUN flag -/
  answer : Option Formed
  /-- the response of the window, while it is SENDING -/
  sending : Option Response
  record : Option LinkRecord
  crcErrors : Half
  abortedRequests : Half
  replays : Half
  deriving DecidableEq, Repr

/-- R165, with CS_N at the level it stands at. -/
def Link.reset (csLow : Bool) : Link :=
  { csLow := csLow, window := .idle, executing := none, waiting := none, answer := none, sending := none,
    record := none, crcErrors := 0, abortedRequests := 0, replays := 0 }

/-! ## The whole part -/

/-- The state of the part. -/
structure State where
  /-- RESET_N is held low -/
  resetLow : Bool
  /-- REFCLK is running -/
  refclk : Bool
  mbc : Mbc
  mst : Mst
  lanes : Tbl 32 Lane
  cal : Cal
  plan : Plan
  timer : Timer
  rx : PerPort Rx
  rpt : PerPort Rpt
  att : PerPort Att
  link : PerPort Link
  /-- The model's: the commands waiting, first in first out. -/
  pending : List Instr
  /-- The model's: how many free choices the idle step has made. -/
  choices : Nat
  deriving DecidableEq, Repr

/-- The part right after RESET_N is released (R17, R40, R43, R59 to R61, R79, R106, R126, R146, R148, R151, R165).
DESIGN CHOICE (log 1, log 10, log 14): all four straps high, every CS_N high, REFCLK running, no byte of the pool listed.
Unsafe: a part whose straps differ starts otherwise, which `resetNRelease` covers. -/
def State.reset : State :=
  { resetLow := false
    refclk := true
    mbc := Mbc.reset (PerPort.fill true)
    mst := Mst.reset []
    lanes := Tbl.fill 32 Lane.reset
    cal := Cal.reset
    plan := Plan.reset
    timer := Timer.reset
    rx := PerPort.fill Rx.reset
    rpt := PerPort.fill Rpt.reset
    att := PerPort.fill Att.reset
    link := PerPort.fill (Link.reset false)
    pending := []
    choices := 0 }

/-- Why the part stops with a fault: never. The spec gives every command an answer and every happening an effect, so no
constructor stands here. Safe. -/
inductive Fault : Type
  deriving DecidableEq, Repr

/-- Why the model has no meaning for a command. -/
inductive Refusal where
  /-- Raised by an arm of `exec` whose command is not modelled, and by nothing else; no arm is such an arm. Safe: the
  model stops where the part goes on. -/
  | notModelled (mnemonic : String)
  deriving DecidableEq, Repr

/-- What a step of the part answers. -/
abbrev Result := Host.Outcome State Fault Refusal

end Sys2Proof.Machine
end

