-- ==== Sys2Proof/Machine/Flags.lean ====
section
/-! DEFINITION. Flags and counters: event latches, renewed marks, the mask and the ATTN_N line (R137, R138), saturating
counters (00_scope.md, "Counters"), and the two numbers that run from 1 to 255 (R60, R140). -/

namespace Sys2Proof.Machine

open Sys2Proof

/-- A 16-bit counter raised by one, saturating at 65535. -/
def bump (c : Half) : Half := if c = 0xFFFF then c else c + 1

/-- A 16-bit counter raised by one, `n` times. -/
def bumpBy : Nat → Half → Half
  | 0, c => c
  | n + 1, c => bumpBy n (bump c)

/-- The number after `n` in 1 to 255: 255 is followed by 1 (R60, R140). -/
def nextNumber (n : BitVec 8) : BitVec 8 := if n = 255 then 1 else n + 1

/-- The number of an event kind (Table 9-2). -/
def EventKind.number : EventKind → Nat
  | .rxReady => 0
  | .leaseExpired => 1
  | .deliveryExpired => 2
  | .reportReady => 3
  | .reportLost => 4
  | .laneClosed => 5
  | .planOpened => 6
  | .planDecided => 7
  | .memberChange => 8
  | .readyCleared => 9
  | .exchangeRun => 10
  | .linkError => 11

/-- The set of one event kind. -/
def EventKind.bit (k : EventKind) : EventSet := BitVec.twoPow 12 k.number

/-- A kind is in a set. -/
def EventSet.has (t : EventSet) (k : EventKind) : Bool := BitVec.getLsbD t k.number

/-- At least one kind is latched and in the mask: the condition of ATTN_N and of the ATTENTION flag (R138). -/
def Att.attention (a : Att) : Bool := a.latched &&& a.mask != 0

/-- ATTN_N set to its level by R138. -/
def Att.line (a : Att) : Att := { a with attnLow := a.attention }

/-- R137: a raise of a kind latches it, or sets its renewed mark if it is latched already; the line follows. -/
def Att.raise (k : EventKind) (a : Att) : Att :=
  if EventSet.has a.latched k then ({ a with renewed := a.renewed ||| k.bit } : Att).line
  else ({ a with latched := a.latched ||| k.bit } : Att).line

/-- R140, steps 1 to 4: a snapshot is taken and every renewed mark cleared. -/
def Att.takeSnapshot (a : Att) : Att :=
  { a with
    snapshot := some ⟨a.nextSnapshot, a.latched⟩
    nextSnapshot := nextNumber a.nextSnapshot
    renewed := 0 }

/-- R141: the kinds of a snapshot whose renewed mark is clear. -/
def Att.clearable (a : Att) (sn : Snapshot) : EventSet := sn.kinds &&& ~~~ a.renewed

/-- R141: those kinds are cleared, the snapshot is consumed, the line follows. -/
def Att.clearKinds (a : Att) (sn : Snapshot) : Att :=
  ({ a with latched := a.latched &&& ~~~ a.clearable sn, snapshot := none } : Att).line

/-- R142: the mask is replaced whole, the line follows. -/
def Att.setMask (a : Att) (m : EventSet) : Att := ({ a with mask := m } : Att).line

/-- R147: PORT_RESET's part; the next snapshot number is kept. -/
def Att.clearAll (a : Att) : Att :=
  ({ a with latched := 0, renewed := 0, snapshot := none, mask := EventSet.defaultMask } : Att).line

end Sys2Proof.Machine
end

