-- ==== Sys2Proof/Machine/Memory.lean ====
section
/-! DEFINITION. The buffer pool: 512 buffers of 64 bytes (01_message_store.md, 1.2), as a canonical list of cells. -/

namespace Sys2Proof.Machine

open Sys2Proof

/-- What a byte of the pool that nothing has written reads as. DESIGN CHOICE (log 10): R17 does not set the buffers at
reset. Unsafe, but no command reads such a byte (R12). -/
def Memory.blank : Byte := 0

/-- The byte at a key. -/
def Memory.read : Memory → Nat → Byte
  | [], _ => Memory.blank
  | (k, b) :: m, a => if k = a then b else Memory.read m a

/-- A cell put before the cells of larger keys; a blank byte is not listed. -/
def Memory.consCell (a : Nat) (b : Byte) (m : Memory) : Memory := if b = Memory.blank then m else (a, b) :: m

/-- The pool with the byte at a key written. -/
def Memory.write : Memory → Nat → Byte → Memory
  | [], a, b => Memory.consCell a b []
  | (k, c) :: m, a, b =>
    if a < k then Memory.consCell a b ((k, c) :: m)
    else if a = k then Memory.consCell a b m
    else (k, c) :: Memory.write m a b

/-- The canonical form: keys strictly rising, no blank byte listed. -/
def Memory.wf : Memory → Bool
  | [] => true
  | [(_, b)] => b != Memory.blank
  | (k, b) :: (k', b') :: m => b != Memory.blank && decide (k < k') && Memory.wf ((k', b') :: m)

/-- Bytes per buffer. -/
def bufferBytes : Nat := 64

/-- Where data byte `i` of a message lies (R12): fragment i div 64, byte i mod 64 of that buffer. -/
def dataKey (fragments : List BufId) (i : Nat) : Nat :=
  bufferBytes * (fragments.getD (i / bufferBytes) 0).val + i % bufferBytes

/-- The data bytes from number `i` on stored in the fragments (R12). -/
def Memory.store (fragments : List BufId) : Nat → List Byte → Memory → Memory
  | _, [], m => m
  | i, b :: data, m => Memory.store fragments (i + 1) data (m.write (dataKey fragments i) b)

/-- The first `length` data bytes of the fragments (R12). -/
def Memory.load (fragments : List BufId) (length : Nat) (m : Memory) : List Byte :=
  (List.range length).map fun i => m.read (dataKey fragments i)

/-- Buffers a message of `n` bytes occupies: n divided by 64, rounded up (1.2). -/
def buffersFor (n : Nat) : Nat := (n + (bufferBytes - 1)) / bufferBytes

end Sys2Proof.Machine
end

