-- ==== Sys2Proof/Machine/Operands.lean ====
section
/-! DEFINITION. Encodings of the fields a link carries (R178, Table 11-16), both ways. A decoder answers none for a code
that is not listed, which its command answers BAD_ARGUMENT. -/

namespace Sys2Proof.Machine

open Sys2Proof

/-! ## Numbers -/

/-- A number as one byte. -/
def byteOf (n : Nat) : Byte := BitVec.ofNat 8 n

/-- A number as two bytes, least significant first. -/
def le16 (n : Nat) : List Byte := [byteOf n, byteOf (n / 256)]

/-- The number of two bytes, least significant first. -/
def u16 (lo hi : Byte) : Nat := lo.toNat + 256 * hi.toNat

/-- A flag as a bit of a byte. -/
def bitOf (b : Bool) (i : Nat) : Byte := if b then BitVec.ofNat 8 (2 ^ i) else 0

/-! ## Ports and sets -/

/-- The port of a byte, 0 to 3. -/
def portOf (b : Byte) : Option Port :=
  if b = 0 then some .p0
  else if b = 1 then some .p1
  else if b = 2 then some .p2
  else if b = 3 then some .p3
  else none

/-- A port as a byte. -/
def portByte (p : Port) : Byte := byteOf p.toNat

/-- An entry owner as a byte: NONE is 4. -/
def ownerByte : Option Port → Byte
  | none => 4
  | some p => portByte p

/-- A set of ports as a byte: bit p for port Pp. -/
def portSetByte (t : PortSet) : Byte := bitOf t.p0 0 ||| bitOf t.p1 1 ||| bitOf t.p2 2 ||| bitOf t.p3 3

/-- The set of ports of a byte; none when any of bits 4 to 7 is set. -/
def portSetOf (b : Byte) : Option PortSet :=
  if b &&& 0xF0 = 0 then some ⟨b.getLsbD 0, b.getLsbD 1, b.getLsbD 2, b.getLsbD 3⟩ else none

/-- A set of event kinds as two bytes. -/
def eventSetBytes (k : EventSet) : List Byte := le16 k.toNat

/-- The set of event kinds of two bytes; none when any of bits 12 to 15 is set. -/
def eventSetOf (lo hi : Byte) : Option EventSet :=
  if hi &&& 0xF0 = 0 then some (BitVec.ofNat 12 (u16 lo hi)) else none

/-! ## Numbers of records -/

/-- The lane of a byte, 0 to 31. -/
def laneOf (b : Byte) : Option LaneId := if h : b.toNat < 32 then some ⟨b.toNat, h⟩ else none

/-- The entry of a byte: every index a host can send is in range (03_calendar_banks.md, 3.1). -/
def entryOf (b : Byte) : EntryId := ⟨b.toNat, b.isLt⟩

/-- A lease handle as a byte: the slot in bits 5 and 4, the generation in bits 3 to 0. -/
def handleByte (n : SlotId) (g : BitVec 4) : Byte := byteOf (16 * n.val + g.toNat)

/-- The slot and generation of a handle byte; none when bit 7 or bit 6 is set. -/
def handleOf (b : Byte) : Option (SlotId × BitVec 4) :=
  if h : b.toNat / 16 < 4 then some (⟨b.toNat / 16, h⟩, BitVec.ofNat 4 b.toNat) else none

/-! ## Codes of Table 11-16 -/

/-- Full policy. -/
def policyOf (b : Byte) : Option Policy := if b = 0 then some .miss else if b = 1 then some .hold else none

/-- Full policy as a code. -/
def Policy.code : Policy → Byte
  | .miss => 0
  | .hold => 1

/-- Report mode. -/
def reportModeOf (b : Byte) : Option ReportMode :=
  if b = 0 then some .none else if b = 1 then some .failures else if b = 2 then some .all else none

/-- Report mode as a code. -/
def ReportMode.code : ReportMode → Byte
  | .none => 0
  | .failures => 1
  | .all => 2

/-- Bank selector. -/
inductive Selector where
  | active | shadow
  deriving DecidableEq, Repr

/-- The bank selector of a byte. -/
def selectorOf (b : Byte) : Option Selector := if b = 0 then some .active else if b = 1 then some .shadow else none

/-- Vote choice. -/
inductive Choice where
  | yes | no
  deriving DecidableEq, Repr

/-- The vote choice of a byte. -/
def choiceOf (b : Byte) : Option Choice := if b = 1 then some .yes else if b = 2 then some .no else none

/-- RETURN position. -/
inductive Position where
  | head | tail
  deriving DecidableEq, Repr

/-- The RETURN position of a byte. -/
def positionOf (b : Byte) : Option Position := if b = 0 then some .head else if b = 1 then some .tail else none

/-- READ_COUNTERS action. -/
inductive CounterAction where
  | keep | clear
  deriving DecidableEq, Repr

/-- The READ_COUNTERS action of a byte. -/
def counterActionOf (b : Byte) : Option CounterAction := if b = 0 then some .keep else if b = 1 then some .clear else none

/-- Exchange state as a code. -/
def Exchange.code : Exchange → Byte
  | .setup => 0
  | .run => 1

/-- Port state as a number, for its two bits of the STATUS response. -/
def PortState.code : PortState → Nat
  | .disabled => 0
  | .offline => 1
  | .ready => 2
  | .online => 3

/-- Timer state as a code. -/
def TimerState.code : TimerState → Byte
  | .stopped => 0
  | .running => 1

/-- Lane state as a code. -/
def LaneState.code : LaneState → Byte
  | .closed => 0
  | .opened => 1
  | .draining => 2

/-- Delivery state as a code. -/
def Delivery.code : Delivery → Byte
  | .notDest => 0
  | .waiting => 1
  | .queued => 2
  | .leased => 3
  | .delivered => 4
  | .missed => 5
  | .expired => 6
  | .abandoned => 7

/-- Message outcome as a code. -/
def MsgOutcome.code : MsgOutcome → Byte
  | .complete => 0
  | .partly => 1
  | .failed => 2
  | .stale => 3
  | .purged => 4

/-- Bank letter as a code. -/
def BankId.code : BankId → Byte
  | .a => 0
  | .b => 1

/-- Proposal state as a code. -/
def proposalStateCode : Option Proposal → Byte
  | none => 0
  | some r => match r.state with
    | .opened => 1
    | .accepted => 2

/-- Plan outcome as a code. -/
def PlanOutcome.code : PlanOutcome → Byte
  | .applied => 0
  | .rejected _ => 1
  | .lapsedDeadline => 2
  | .lapsedMemberLeft => 2
  | .withdrawnByProposer => 3
  | .withdrawnProposerLeft => 3

/-- Plan cause as a code. -/
def PlanOutcome.cause : PlanOutcome → Byte
  | .applied => 0
  | .rejected p => portByte p
  | .lapsedDeadline => 0
  | .lapsedMemberLeft => 1
  | .withdrawnByProposer => 0
  | .withdrawnProposerLeft => 1

/-- Status as a code (Table 11-15). -/
def Status.code : Status → Byte
  | .ok => 0x00
  | .crcError => 0x01
  | .badCommand => 0x02
  | .badLength => 0x03
  | .badArgument => 0x04
  | .wrongState => 0x05
  | .notMember => 0x06
  | .notOwner => 0x07
  | .noDescriptor => 0x08
  | .quota => 0x09
  | .pool => 0x0A
  | .laneFull => 0x0B
  | .laneState => 0x0C
  | .laneScheduled => 0x0D
  | .inPlan => 0x0E
  | .empty => 0x0F
  | .noLeaseSlot => 0x10
  | .badLease => 0x11
  | .late => 0x12
  | .frozen => 0x13
  | .taken => 0x14
  | .planInvalid => 0x15
  | .planBusy => 0x16
  | .noProposal => 0x17
  | .staleNumber => 0x18
  | .notVoter => 0x19
  | .voteConflict => 0x1A
  | .limit => 0x1B
  | .staleSnapshot => 0x1C

/-! ## The CRC and the frames -/

/-- One bit enters the CRC register (R168). -/
def crcBit (r : Half) (b : Bool) : Half := if (r.msb ^^ b) = true then (r <<< 1) ^^^ 0x1021 else r <<< 1

/-- One byte enters the CRC register, most significant bit first (R168). -/
def crcByte (r : Half) (x : Byte) : Half :=
  [7, 6, 5, 4, 3, 2, 1, 0].foldl (fun r i => crcBit r (x.getLsbD i)) r

/-- The CRC of a frame's bytes (R168). -/
def crc16 (bytes : List Byte) : Half := bytes.foldl crcByte 0xFFFF

/-- The bytes of a request its CRC is computed over: command through last payload byte (R168, Table 11-12). -/
def Request.bytes (r : Request) : List Byte := r.code :: r.tag :: (le16 r.payload.length ++ r.payload)

/-- The CRC of a request. -/
def Request.crc (r : Request) : Half := crc16 r.bytes

/-- The flags byte of a response (Table 11-13). -/
def Response.flags (r : Response) : Byte := bitOf r.replay 0 ||| bitOf r.attention 1 ||| bitOf r.run 2

/-- The bytes of a response its CRC is computed over: status through last payload byte (R168). -/
def Response.body (r : Response) : List Byte :=
  r.status.code :: r.tag :: r.flags :: (le16 r.payload.length ++ r.payload)

/-- The response frame as it is sent: start byte, body, CRC (Table 11-13). -/
def Response.bytes (r : Response) : List Byte := 0x5A :: (r.body ++ le16 (crc16 r.body).toNat)

end Sys2Proof.Machine
end

