-- ==== Sys2Proof/Machine/Ops.lean ====
section
/-! DEFINITION. The named operations over the part's records, queues and tables that the meanings share: reading and
updating one record, raising events, answering a command, ending a message (R15, R127 to R131), lowering an outstanding
count (R6, R119), and the checks common to commands. -/

namespace Sys2Proof.Machine

open Sys2Proof

/-! ## Reading and updating one record -/

/-- The descriptor of a number; none when it is FREE. -/
def State.desc (s : State) (d : DescId) : Option Desc := s.mst.desc.at d

/-- The state with one descriptor replaced. -/
def State.setDesc (s : State) (d : DescId) (m : Option Desc) : State :=
  { s with mst := { s.mst with desc := s.mst.desc.put d m } }

/-- The lane record of a number. -/
def State.lane (s : State) (l : LaneId) : Lane := s.lanes.at l

/-- The state with one lane record passed through a function. -/
def State.modLane (s : State) (l : LaneId) (f : Lane → Lane) : State :=
  { s with lanes := s.lanes.put l (f (s.lanes.at l)) }

/-- The state with one port's receive state passed through a function. -/
def State.modRx (s : State) (p : Port) (f : Rx → Rx) : State := { s with rx := s.rx.modify p f }

/-- The state with one port's report state passed through a function. -/
def State.modRpt (s : State) (p : Port) (f : Rpt → Rpt) : State := { s with rpt := s.rpt.modify p f }

/-- The state with one port's attention state passed through a function. -/
def State.modAtt (s : State) (p : Port) (f : Att → Att) : State := { s with att := s.att.modify p f }

/-- The state with one port's link state passed through a function. -/
def State.modLink (s : State) (p : Port) (f : Link → Link) : State := { s with link := s.link.modify p f }

/-- The state with one port's refusal counters passed through a function. -/
def State.modRefusals (s : State) (p : Port) (f : Refusals → Refusals) : State :=
  { s with mst := { s.mst with refusals := s.mst.refusals.modify p f } }

/-- The state of a port (Table 10-2). -/
def State.portState (s : State) (p : Port) : PortState := s.mbc.ports.get p

/-- The state with one port's state replaced. -/
def State.setPort (s : State) (p : Port) (st : PortState) : State :=
  { s with mbc := { s.mbc with ports := s.mbc.ports.set p st } }

/-- A port is ONLINE. -/
def State.online (s : State) (p : Port) : Bool := s.portState p == .online

/-- The setup parameters of a port. -/
def State.params (s : State) (p : Port) : Params := s.mbc.params.get p

/-- The exchange is in RUN. -/
def State.inRun (s : State) : Bool := s.mbc.exchange == .run

/-- The ports that are ONLINE, other than `p`, in ascending order. -/
def State.otherOnline (s : State) (p : Port) : List Port := Port.all.filter fun q => q != p && s.online q

/-- The enabled ports still OFFLINE. -/
def State.offlinePorts (s : State) : List Port := Port.all.filter fun q => s.portState q == .offline

/-! ## Events -/

/-- A block raises a kind for a port (R137). -/
def State.raise (s : State) (k : EventKind) (p : Port) : State := s.modAtt p (Att.raise k)

/-- A block raises a kind for each of several ports, in order. -/
def State.raiseAll (s : State) (k : EventKind) (ps : List Port) : State := ps.foldl (fun s p => s.raise k p) s

/-! ## Answers -/

/-- A command can reach its block from the port: RESET_N is high (R148 "no block acts") and the port is not DISABLED
(R148 "it sends no command and no block acts for it"). -/
def State.live (s : State) (p : Port) : Bool := !s.resetLow && s.portState p != .disabled

/-- An answer with the exchange state as it stands for its RUN flag (R155, R172). -/
def State.formed (s : State) (a : Answer) : Formed := ⟨a, s.inRun⟩

/-- The owning block's answer goes to the port's link, with the RUN flag now that the block has acted (R155, R170). -/
def State.answer (s : State) (p : Port) (a : Answer) : State := s.modLink p fun l => { l with answer := some (s.formed a) }

/-- A state answered with a status and a payload. -/
def reply (s : State) (st : Status) (payload : List Byte) : State × Answer := (s, .reply st payload)

/-- A state answered with a status and an empty payload. -/
def refuse (s : State) (st : Status) : State × Answer := reply s st []

/-- Nothing stands in the way of a command of that code and payload at port `p`'s link: no request of p is executing, or
the executing request is that command and has no answer yet (R170: a port has at most one request executing). -/
def Link.freeFor (l : Link) (code : Byte) (payload : List Byte) : Bool :=
  match l.executing with
  | none => true
  | some r => r.code == code && r.payload == payload && l.answer.isNone

/-- The part takes a command: it can reach its block from its port (log 5), and the port's link is free for it (R170,
log 4). -/
def State.takes (s : State) (i : Instr) : Bool :=
  match i.command? with
  | none => false
  | some (p, code, payload) => s.live p && (s.link.get p).freeFor code payload

/-- The command `i` of port `p` is taken whole at its block: the block acts, and its answer goes to p's link. A command
the part does not take changes nothing (log 4, log 5). -/
def command (i : Instr) (p : Port) (s : State) (act : State → State × Answer) : Result :=
  .next (if s.takes i then ((act s).1).answer p (act s).2 else s)

/-- The checks that the exchange is in RUN and the port ONLINE, in that order (Tables 2-4, 3-5, 4-5 to 4-7, 7-4, 8-5),
with a payload for the two refusals. -/
def memberElse (s : State) (p : Port) (payload : List Byte) (act : State × Answer) : State × Answer :=
  if !s.inRun then reply s .wrongState payload
  else if !s.online p then reply s .notMember payload
  else act

/-- The checks that the exchange is in RUN and the port ONLINE, refused with an empty payload. -/
def memberOnly (s : State) (p : Port) (act : State × Answer) : State × Answer := memberElse s p [] act

/-! ## Message Store -/

/-- The part of p's reserve not yet in use, for a held count (R9). -/
def unmet (reserve held : Nat) : Nat := reserve - held

/-- Number of descriptors in state FREE (R1). -/
def State.freeDescriptors (s : State) : Nat := s.mst.desc.toList.countP (·.isNone)

/-- The lowest-numbered FREE descriptor (R11). -/
def State.lowestFree (s : State) : Option DescId := (List.finRange 256).find? fun d => (s.desc d).isNone

/-- Free count: number of buffers on the free list (R7). -/
def State.freeCount (s : State) : Nat := s.mst.free.length

/-- The store frees a descriptor (R15). -/
def State.freeDesc (s : State) (d : DescId) (m : Desc) : State :=
  { s with
    mst := { s.mst with
      desc := s.mst.desc.put d none
      free := s.mst.free ++ m.fragments
      held := s.mst.held.modify m.source (· - m.fragments.length) } }

/-! ## Report Unit -/

/-- What the Report Unit is told with an ended descriptor (Table 8-1). -/
inductive Ending where
  | stale | purged | released
  deriving DecidableEq, Repr

/-- A delivery state of a destination (R128). -/
def Delivery.isDest (v : Delivery) : Bool := v != .notDest

/-- R128: the outcome of an ended message. -/
def outcomeOf (m : Desc) : Ending → MsgOutcome
  | .stale => .stale
  | .purged => .purged
  | .released =>
    let dests := Port.all.filter fun p => (m.delivery.get p).isDest
    let done := dests.filter fun p => m.delivery.get p == .delivered
    if done.length = 0 then .failed
    else if done.length = dests.length then .complete
    else .partly

/-- R129: the report record formed from the descriptor. -/
def reportOf (d : DescId) (m : Desc) (e : Ending) : Report :=
  { desc := d
    lane := m.lane
    label := m.label
    outcome := outcomeOf m e
    finalStates := m.delivery
    submitCycle := m.submitCycle
    stamp := m.stamp
    attempts := Port.sum m.attempts.get }

/-- R130, Table 8-4: a report mode posts an outcome. -/
def ReportMode.posts : ReportMode → MsgOutcome → Bool
  | .none, _ => false
  | .failures, o => o != .complete
  | .all, _ => true

/-- Records a report queue can hold (R126). -/
def reportCapacity : Nat := 16

/-- R131: a record is appended to a port's report queue, or lost to a full one. -/
def State.appendReport (s : State) (p : Port) (r : Report) : State :=
  let n := (s.rpt.get p).queue.length
  if n < reportCapacity then
    let s' := s.modRpt p fun t => { t with queue := t.queue ++ [r] }
    if n = 0 then s'.raise .reportReady p else s'
  else (s.modRpt p fun t => { t with lost := bump t.lost }).raise .reportLost p

/-- R130: a formed record is posted, dropped for its report mode, or discarded for its source's state. -/
def State.post (s : State) (m : Desc) (r : Report) : State :=
  if m.reportMode.posts r.outcome && s.online m.source then s.appendReport m.source r else s

/-- R127, R15: a message ends: outcome, record, posting, then the store frees the descriptor. -/
def State.endMessage (s : State) (d : DescId) (e : Ending) : State :=
  match s.desc d with
  | none => s
  | some m => (s.post m (reportOf d m e)).freeDesc d m

/-! ## Deliveries -/

/-- The descriptor with one port's delivery state replaced. -/
def Desc.setDelivery (m : Desc) (p : Port) (v : Delivery) : Desc := { m with delivery := m.delivery.set p v }

/-- The state with one port's delivery state in one descriptor replaced. -/
def State.setDelivery (s : State) (d : DescId) (p : Port) (v : Delivery) : State :=
  match s.desc d with
  | none => s
  | some m => s.setDesc d (some (m.setDelivery p v))

/-- R6, R119: a delivery leaves QUEUED or LEASED for a final state, the outstanding count falls by one, and a message
whose count reaches 0 ends. -/
def State.settle (s : State) (d : DescId) (p : Port) (v : Delivery) : State :=
  match s.desc d with
  | none => s
  | some m =>
    let s' := s.setDesc d (some { m.setDelivery p v with outstanding := m.outstanding - 1 })
    if m.outstanding - 1 = 0 then s'.endMessage d .released else s'

/-! ## Receive queues -/

/-- Number of HELD lease slots. -/
def Rx.heldSlots (r : Rx) : Nat := (List.finRange 4).countP fun n => (r.slots.at n).lease.isSome

/-- Occupancy: queued deliveries plus HELD lease slots (R104). -/
def Rx.occupancy (r : Rx) : Nat := r.queue.length + r.heldSlots

/-- The lowest-numbered FREE lease slot (R111). -/
def Rx.lowestFree (r : Rx) : Option SlotId := (List.finRange 4).find? fun n => (r.slots.at n).lease.isNone

/-- The receive state with one lease slot passed through a function. -/
def Rx.modSlot (r : Rx) (n : SlotId) (f : LeaseSlot → LeaseSlot) : Rx := { r with slots := r.slots.put n (f (r.slots.at n)) }

/-- R108: a delivery is put in a port's receive queue, at the head or at the tail, and RX_READY is raised when the
queued count rises from below the watermark to at or above it. -/
def State.enqueue (s : State) (p : Port) (d : DescId) (pos : Position) : State :=
  let n := (s.rx.get p).queue.length
  let w := (s.params p).watermark
  let s' := s.modRx p fun r => { r with queue := match pos with
    | .head => d :: r.queue
    | .tail => r.queue ++ [d] }
  if n < w && w ≤ n + 1 then s'.raise .rxReady p else s'

/-! ## Calendar and plan questions answered to several blocks -/

/-- An entry is RELEASE and names a lane; an EMPTY entry names none (R46). -/
def Entry.namesLane (e : Entry) (l : LaneId) : Bool :=
  match e.release with
  | some r => r.lane == l
  | none => false

/-- A bank has a RELEASE entry naming a lane (R46). -/
def Bank.names (b : Bank) (l : LaneId) : Bool := b.entries.toList.any (·.namesLane l)

/-- A port owns an entry of a bank (R46). -/
def Bank.ownedBy (b : Bank) (p : Port) : Bool := b.entries.toList.any fun e => e.owner == some p

/-- The shadow is frozen: the proposal state is OPEN or ACCEPTED (R48). -/
def State.frozen (s : State) : Bool := s.plan.proposal.isSome

/-- The owner of a lane's last opening (R21). -/
def Lane.owner (l : Lane) : Option Port := l.settings.map (·.owner)

/-! ## Time -/

/-- A time base value has been reached: it is the present one or lies less than 2147483648 µs back (R78). -/
def reached (t now : Time) : Bool := (now - t).toNat < 2147483648

/-- The time base reaches a value: it becomes that value, unless it has passed it already (R78, log 7). -/
def Timer.reach (t : Timer) (at' : Time) : Timer := if reached at' t.timeBase then t else { t with timeBase := at' }

end Sys2Proof.Machine
end

