-- ==== Sys2Proof/Machine/Clock.lean ====
section
/-! DEFINITION. RESET_N and REFCLK (R78, R79, R148). -/

namespace Sys2Proof.Machine

open Sys2Proof

/-- The timer while RESET_N is held low: stopped where it stands, time base at 0, SYNC_OUT low (R79, R85, R86). -/
def Timer.heldInReset (t : Timer) : Timer :=
  { t with timeBase := 0, state := .stopped, nextSlot := none, syncOut := false, syncEnd := none }

/-- Every port's attention state with ATTN_N high (R138). -/
def attentionHigh (t : PerPort Att) : PerPort Att := PerPort.ofFn fun p => { t.get p with attnLow := false }

/-- RESET_N_ASSERT (R79, R138, R148, R165). What the rules do not name keeps its value until the release (log 3). -/
def execResetNAssert (s : State) : Result :=
  .next { s with resetLow := true, timer := s.timer.heldInReset, att := attentionHigh s.att }

/-- RESET_N_RELEASE (R148 and each block's reset rule: R17, R40, R43, R59 to R61, R79, R106, R126, R146, R151, R165): the
straps are sampled and every block takes its reset values. The buffers are not set (R17); REFCLK and each CS_N stand as
they stand. From a released RESET_N the command is the whole reset pulse (log 2). -/
def execResetNRelease (straps : PortSet) (s : State) : Result :=
  .next
    { s with
      resetLow := false
      mbc := Mbc.reset straps
      mst := Mst.reset s.mst.pool
      lanes := Tbl.fill 32 Lane.reset
      cal := Cal.reset
      plan := Plan.reset
      timer := Timer.reset
      rx := PerPort.fill Rx.reset
      rpt := PerPort.fill Rpt.reset
      att := PerPort.fill Att.reset
      link := PerPort.ofFn fun p => Link.reset (s.link.get p).csLow }

/-- REFCLK_STOP (R78): the time base stops with REFCLK. -/
def execRefclkStop (s : State) : Result := .next { s with refclk := false }

/-- REFCLK_RESUME (R78): counting continues from the value it had. -/
def execRefclkResume (s : State) : Result := .next { s with refclk := true }

end Sys2Proof.Machine
end

