-- ==== Sys2Proof/Machine/Link.lean ====
section
/-! DEFINITION. Host Link Units: the chip-select window, receiving, taking, replay, the end of an execution, and REPEAT
(11_host_link_protocol.md). -/

namespace Sys2Proof.Machine

open Sys2Proof

/-! ## Responses -/

/-- A stored response returned by a replay or by REPEAT: marked REPLAY, its other flags as formed (R172). -/
def Response.replayed (r : Response) : Response := { r with replay := true }

/-- The response frame of an answer under a request's tag, for an ATTENTION flag; the stored response, marked REPLAY
(R172). -/
def Formed.response (tag : Byte) (attention : Bool) (f : Formed) : Response :=
  match f.answer with
  | .reply st payload =>
    { status := st, tag := tag, replay := false, attention := attention, run := f.run, payload := payload }
  | .stored resp => resp.replayed

/-- The response that port p's link forms now, its ATTENTION flag by the latched and enabled kinds of p (R138, R147,
R172). -/
def State.respond (s : State) (p : Port) (tag : Byte) (f : Formed) : Response := f.response tag (s.att.get p).attention

/-- The response of the link itself, with an empty payload (R167, R168). -/
def State.respondOwn (s : State) (p : Port) (tag : Byte) (st : Status) : Response := s.respond p tag (s.formed (.reply st []))

/-- The link sends a response in its window. -/
def Link.send (r : Response) (l : Link) : Link := { l with window := .sending, sending := some r }

/-- What a link drives on MISO (R166): nothing while CS_N is high or the port takes no part, 00h until the response is
ready and after it, or the response frame. -/
inductive Miso where
  | highZ | zeros | frame (r : Response)
  deriving DecidableEq, Repr

/-- MISO of port `p` (R165, R166). -/
def State.miso (s : State) (p : Port) : Miso :=
  let l := s.link.get p
  if !s.live p || !l.csLow then .highZ
  else match l.window, l.sending with
    | .sending, some r => .frame r
    | .idle, _ => .highZ
    | _, _ => .zeros

/-! ## Windows -/

/-- The window that a fall of CS_N opens (R166, Table 11-3). -/
def Link.openWindow (l : Link) : Link :=
  { l with window := if l.waiting.isSome then .discarding else .receiving }

/-- CS_N_FALL (R166). The level falls in any case; a link that takes no part opens no window (R165). -/
def execCsNFall (p : Port) (s : State) : Result :=
  .next <|
    if (s.link.get p).csLow then s
    else
      let s' := s.modLink p fun l => { l with csLow := true }
      if s.live p then s'.modLink p Link.openWindow else s'

/-- The window ends (R169, Table 11-3). -/
def Link.closeWindow (l : Link) : Link := { l with window := .idle, sending := none }

/-- R169: the window is RECEIVING or DISCARDING. -/
def Window.abortable : Window → Bool
  | .receiving => true
  | .discarding => true
  | .idle => false
  | .awaiting => false
  | .sending => false
  | .done => false

/-- R169, R176: an abort is counted and LINK_ERROR raised. -/
def State.abort (s : State) (p : Port) : State :=
  (s.modLink p fun l => { l with abortedRequests := bump l.abortedRequests }).raise .linkError p

/-- CS_N_RISE (R166, R169). -/
def execCsNRise (p : Port) (bytes : Nat) (s : State) : Result :=
  .next <|
    if !(s.link.get p).csLow then s
    else
      let s' := s.modLink p fun l => { l with csLow := false }
      if s.live p then
        (if (s.link.get p).window.abortable && decide (1 ≤ bytes) then s'.abort p else s').modLink p Link.closeWindow
      else s'

/-- RESPONSE_SENT (R166): a SENDING window becomes DONE. -/
def execResponseSent (p : Port) (s : State) : Result :=
  .next <|
    if s.live p && (s.link.get p).window == .sending then
      s.modLink p fun l => { l with window := .done, sending := none }
    else s

/-! ## Receiving -/

/-- R167: a request whose length is above 272 is answered BAD_LENGTH at its length bytes. -/
def State.tooLong (s : State) (p : Port) (tag : Byte) : State := s.modLink p (Link.send (s.respondOwn p tag .badLength))

/-- LENGTH_ABOVE_272 (R167). Bytes count only in a RECEIVING window (Table 11-3); a length of 0 to 272 is accepted, and the
window goes on RECEIVING. -/
def execLengthAbove272 (p : Port) (_code tag : Byte) (length : Nat) (s : State) : Result :=
  .next <|
    if s.live p && (s.link.get p).window == .receiving && decide (272 < length) then s.tooLong p tag else s

/-- R168: a request whose CRC fails is counted and answered, and nothing is recorded. -/
def State.crcFailed (s : State) (p : Port) (tag : Byte) : State :=
  let s' := (s.modLink p fun l => { l with crcErrors := bump l.crcErrors }).raise .linkError p
  s'.modLink p (Link.send (s'.respondOwn p tag .crcError))

/-- R174: a request is a replay of the record: its tag is nonzero and its tag and command are the recorded ones. -/
def Link.replayOf (l : Link) (r : Request) : Option Response :=
  match l.record with
  | none => none
  | some k => if r.tag ≠ 0 ∧ k.tag = r.tag ∧ k.code = r.code then some k.response else none

/-- R171: the answer the link itself gives to a code that is not in Table 11-14, formed as it takes the request
(log 13). -/
def State.linkAnswer (s : State) (p : Port) (r : Request) : Option Formed :=
  match commandOf p r.code r.payload with
  | none => some (s.formed (.reply .badCommand []))
  | some _ => none

/-- R170, R174: a request is taken, replay test first. A replay is counted, and its stored response sent if the window
awaits it; any other request starts to execute. -/
def Link.take (s : State) (p : Port) (r : Request) (l : Link) : Link :=
  match l.replayOf r with
  | some resp =>
    let l' := { l with executing := none, answer := none, replays := bump l.replays }
    if l.window = .awaiting then l'.send resp.replayed else l'
  | none => { l with executing := some r, answer := s.linkAnswer p r }

/-- R170: a well-formed request is taken, or waits for the request that is executing. -/
def Link.accept (s : State) (p : Port) (r : Request) (l : Link) : Link :=
  let l' := { l with window := .awaiting }
  if l.executing.isSome then { l' with waiting := some r } else l'.take s p r

/-- REQUEST_RECEIVED (R167, R168, R170). Bytes count only in a RECEIVING window (Table 11-3). -/
def execRequestReceived (p : Port) (code tag : Byte) (payload : List Byte) (crc : Half) (s : State) : Result :=
  let r : Request := ⟨code, tag, payload⟩
  .next <|
    if !(s.live p && (s.link.get p).window == .receiving) then s
    else if 272 < payload.length then s.tooLong p tag
    else if r.crc ≠ crc then s.crcFailed p tag
    else s.modLink p (Link.accept s p r)

/-! ## The end of an execution -/

/-- R173, R177: the response to REPEAT is not recorded, whatever it is, nor that of a PORT_RESET that was carried out. A
PORT_RESET refused BAD_LENGTH (R163) is recorded like any command answered with an error status (R171). -/
def recorded (code : Byte) (st : Status) : Bool := code != 0x02 && (code != 0x03 || st != .ok)

/-- R173: the link records the request and its response. -/
def Link.note (r : Request) (resp : Response) (l : Link) : Link :=
  if recorded r.code resp.status then { l with record := some ⟨r.tag, r.code, resp⟩ } else l

/-- R170: the WAITING request, if any, is taken. -/
def Link.takeWaiting (s : State) (p : Port) (l : Link) : Link :=
  match l.waiting with
  | none => { l with executing := none, answer := none }
  | some w => ({ l with waiting := none, executing := none, answer := none } : Link).take s p w

/-- R170, R173: the execution of `r` ends with `resp`: it is recorded, it is sent if its window is still AWAITING it (the
window awaits the WAITING request when there is one), and the WAITING request is taken. -/
def Link.finish (s : State) (p : Port) (r : Request) (resp : Response) (l : Link) : Link :=
  let l1 := l.note r resp
  let l2 := if l.window = .awaiting ∧ l.waiting = none then l1.send resp else l1
  l2.takeWaiting s p

/-- EXECUTION_END (R170, R172, R173). Without an executing request and its answer, no execution ends. -/
def execExecutionEnd (p : Port) (s : State) : Result :=
  .next <|
    match (s.link.get p).executing, (s.link.get p).answer with
    | some r, some f => if s.live p then s.modLink p (Link.finish s p r (s.respond p r.tag f)) else s
    | _, _ => s

/-! ## REPEAT -/

/-- REPEAT at the link unit (R175). -/
def repeatLast (s : State) (p : Port) : List Byte → State × Answer
  | [] =>
    match (s.link.get p).record with
    | none => refuse s .empty
    | some k => (s, .stored k.response)
  | _ => refuse s .badLength

/-- REPEAT. -/
def execRepeatLast (p : Port) (payload : List Byte) (s : State) : Result :=
  command (.repeatLast p payload) p s fun s => repeatLast s p payload

end Sys2Proof.Machine
end

