-- ==== Sys2Proof/Machine/Receive.lean ====
section
/-! DEFINITION. Receive Unit: FETCH, REREAD, ACK, RETURN and LEASE_EXPIRY, and the receive part of a leave
(07_receive_queues_and_leases.md). -/

namespace Sys2Proof.Machine

open Sys2Proof

/-! ## Message content -/

/-- The FETCH and REREAD response (Table 7-5, Table 11-18) for the lease in slot `n` of port `p` on descriptor `d`. -/
def contentBytes (s : State) (p : Port) (n : SlotId) (d : DescId) (m : Desc) : List Byte :=
  let st := m.stamp.getD ⟨0, 0⟩
  [handleByte n ((s.rx.get p).slots.at n).generation, byteOf d.val, portByte m.source, byteOf m.lane.val] ++
    le16 m.label.toNat ++ le16 st.cycle.toNat ++ [st.slot, byteOf (m.attempts.get p),
    byteOf (s.rx.get p).queue.length] ++ le16 m.length ++ Memory.load m.fragments m.length s.mst.pool

/-- A state answered OK with the content of a leased message (R112). -/
def replyContent (s : State) (p : Port) (n : SlotId) (d : DescId) : State × Answer :=
  match s.desc d with
  | none => reply s .ok []
  | some m => reply s .ok (contentBytes s p n d m)

/-! ## FETCH -/

/-- The deadline of a lease granted now to `p` (R111, step 5). -/
def State.leaseDeadline (s : State) (p : Port) : Time :=
  s.timer.timeBase + BitVec.ofNat 32 (1000 * (s.params p).leaseTime)

/-- The slot HELD with a lease, its generation advanced (R105, R111 steps 3 to 5). -/
def LeaseSlot.granted (l : Lease) (sl : LeaseSlot) : LeaseSlot :=
  { sl with lease := some l, generation := sl.generation + 1 }

/-- The descriptor after a lease grant to `p` (R111, step 6). -/
def Desc.leaseTo (m : Desc) (p : Port) : Desc :=
  { m with delivery := m.delivery.set p .leased, attempts := m.attempts.modify p (· + 1) }

/-- The state with one descriptor, if it is not FREE, passed through a function. -/
def State.modDesc (s : State) (d : DescId) (f : Desc → Desc) : State :=
  match s.desc d with
  | none => s
  | some m => s.setDesc d (some (f m))

/-- R111: a lease on the queue's head `d` is granted in slot `n`. -/
def State.grantLease (s : State) (p : Port) (n : SlotId) (d : DescId) : State :=
  (s.modRx p fun r =>
    { r.modSlot n (LeaseSlot.granted ⟨d, s.leaseDeadline p⟩) with queue := r.queue.tail }).modDesc d (·.leaseTo p)

/-- FETCH at the Receive Unit (R110, R111, R112). -/
def fetch (s : State) (p : Port) : List Byte → State × Answer
  | [] =>
    memberOnly s p <|
      match (s.rx.get p).lowestFree with
      | none => refuse s .noLeaseSlot
      | some n =>
        match (s.rx.get p).queue with
        | [] => refuse s .empty
        | d :: _ => replyContent (s.grantLease p n d) p n d
  | _ => refuse s .badLength

/-- FETCH. -/
def execFetch (p : Port) (payload : List Byte) (s : State) : Result :=
  command (.fetch p payload) p s fun s => fetch s p payload

/-! ## Resolving a handle -/

/-- R113: what a handle's slot and generation resolve to at one lease slot. -/
def LeaseSlot.resolve (sl : LeaseSlot) (g : BitVec 4) : Except Status Lease :=
  match sl.lease with
  | some l =>
    if sl.generation = g then .ok l
    else if sl.lastEnd = some ⟨g, .expired⟩ then .error .late
    else .error .badLease
  | none => if sl.lastEnd = some ⟨g, .expired⟩ then .error .late else .error .badLease

/-- R110 checks 2 to 4 and R113: a command that names a lease by a handle byte acts on it, or is answered. -/
def onLease (s : State) (p : Port) (handle : Byte) (act : SlotId → Lease → State × Answer) : State × Answer :=
  match handleOf handle with
  | none => refuse s .badArgument
  | some (n, g) =>
    match ((s.rx.get p).slots.at n).resolve g with
    | .error st => refuse s st
    | .ok l => act n l

/-! ## Settling -/

/-- A lease slot after its lease ends (R115, R116 steps 1 and 2). -/
def LeaseSlot.ended (cause : EndCause) (sl : LeaseSlot) : LeaseSlot :=
  { sl with lease := none, lastEnd := some ⟨sl.generation, cause⟩ }

/-- The state with a lease slot of `p` freed, its last end recorded. -/
def State.endLease (s : State) (p : Port) (n : SlotId) (cause : EndCause) : State :=
  s.modRx p fun r => r.modSlot n (LeaseSlot.ended cause)

/-- REREAD at the Receive Unit (R110, R113, R114). -/
def reread (s : State) (p : Port) : List Byte → State × Answer
  | [handle] => memberOnly s p <| onLease s p handle fun n l => replyContent s p n l.desc
  | _ => refuse s .badLength

/-- REREAD. -/
def execReread (p : Port) (payload : List Byte) (s : State) : Result :=
  command (.reread p payload) p s fun s => reread s p payload

/-- ACK at the Receive Unit (R110, R113, R115). -/
def ack (s : State) (p : Port) : List Byte → State × Answer
  | [handle] =>
    memberOnly s p <| onLease s p handle fun n l =>
      reply ((s.endLease p n .settled).settle l.desc p .delivered) .ok [byteOf l.desc.val]
  | _ => refuse s .badLength

/-- ACK. -/
def execAck (p : Port) (payload : List Byte) (s : State) : Result :=
  command (.ack p payload) p s fun s => ack s p payload

/-- R116, step 3: the attempts of p's delivery of `d` are used up. -/
def State.usedUp (s : State) (p : Port) (d : DescId) : Bool :=
  match s.desc d with
  | none => false
  | some m => decide ((s.params p).redelivery + 1 ≤ m.attempts.get p)

/-- R116, step 3: the delivery is given up: the counter rises, DELIVERY_EXPIRED is raised, the delivery becomes EXPIRED. -/
def State.giveUp (s : State) (p : Port) (d : DescId) : State :=
  ((s.modRx p fun r => { r with deliveriesExpired := bump r.deliveriesExpired }).raise .deliveryExpired p).settle d p .expired

/-- R116: the lease in slot `n` of `p` on `d` ends without ACK; a delivery with attempts left is put back at `pos`. -/
def State.endWithoutAck (s : State) (p : Port) (n : SlotId) (d : DescId) (cause : EndCause) (pos : Position) : State :=
  let s' := s.endLease p n cause
  if s.usedUp p d then s'.giveUp p d
  else (s'.setDelivery d p .queued).enqueue p d pos

/-- RETURN at the Receive Unit (R110, R113, R116, R117). -/
def returnLease (s : State) (p : Port) : List Byte → State × Answer
  | [handle, position] =>
    memberOnly s p <|
      match handleOf handle, positionOf position with
      | some _, some pos =>
        onLease s p handle fun n l =>
          let s' := s.endWithoutAck p n l.desc .settled pos
          reply s' .ok [if s.usedUp p l.desc then 1 else 0, byteOf (s'.rx.get p).queue.length]
      | _, _ => refuse s .badArgument
  | _ => refuse s .badLength

/-- RETURN. -/
def execReturnLease (p : Port) (payload : List Byte) (s : State) : Result :=
  command (.returnLease p payload) p s fun s => returnLease s p payload

/-! ## Expiry -/

/-- R118: the expiry of the lease `l` in slot `n` of `p`, at its deadline. -/
def State.expire (s : State) (p : Port) (n : SlotId) (l : Lease) : State :=
  let s' := { s with timer := s.timer.reach l.deadline }
  let s'' := (s'.modRx p fun r => { r with leaseExpiries := bump r.leaseExpiries }).raise .leaseExpired p
  s''.endWithoutAck p n l.desc .expired .head

/-- LEASE_EXPIRY (R118). Nothing falls due while RESET_N is low or REFCLK is stopped (R78), nor for a FREE slot, whose
deadline is absent (R118). -/
def execLeaseExpiry (p : Port) (n : SlotId) (s : State) : Result :=
  .next <|
    if s.resetLow || !s.refclk then s
    else match ((s.rx.get p).slots.at n).lease with
      | none => s
      | some l => s.expire p n l

/-! ## Leaves -/

/-- A lease slot after the leave of its port: FREE, last end absent, generation kept (R122). -/
def LeaseSlot.left (sl : LeaseSlot) : LeaseSlot := { sl with lease := none, lastEnd := none }

/-- R122: the lease slot `n` of `p` is given up. -/
def leaveSlot (p : Port) (s : State) (n : SlotId) : State :=
  match ((s.rx.get p).slots.at n).lease with
  | none => s
  | some l => (s.modRx p fun r => r.modSlot n LeaseSlot.left).settle l.desc p .abandoned

/-- R122: the queued deliveries of `p`, head first, are given up. -/
def leaveQueue (p : Port) : List DescId → State → State
  | [], s => s
  | d :: ds, s => leaveQueue p ds ((s.modRx p fun r => { r with queue := r.queue.tail }).settle d p .abandoned)

/-- The last end of every slot becomes absent (R122). -/
def Rx.clearEnds (r : Rx) : Rx := { r with slots := r.slots.map fun sl => { sl with lastEnd := none } }

/-- R122: the Receive Unit's part of the leave of `p`: slots in ascending number, then the queue from head to tail. -/
def State.leaveReceive (s : State) (p : Port) : State :=
  let s' := (List.finRange 4).foldl (leaveSlot p) s
  (leaveQueue p (s'.rx.get p).queue s').modRx p Rx.clearEnds

/-- R123: PORT_RESET clears the receive counters. -/
def Rx.clearCounters (r : Rx) : Rx := { r with rxMissed := 0, leaseExpiries := 0, deliveriesExpired := 0 }

end Sys2Proof.Machine
end

