-- ==== Sys2Proof/Machine/Reports.lean ====
section
/-! DEFINITION. Report Unit: GET_REPORT (R132), and the report part of a leave (R134). Forming and posting a report
stand in Ops.lean, where every message end uses them. -/

namespace Sys2Proof.Machine

open Sys2Proof

/-- The stamp bytes of a report: presence, cycle, slot; zeros when absent. -/
def stampBytes : Option Stamp → List Byte
  | none => [0, 0, 0, 0]
  | some t => 1 :: le16 t.cycle.toNat ++ [t.slot]

/-- The GET_REPORT response (Table 8-3, Table 11-19), with the report count after the removal. -/
def reportBytes (r : Report) (count : Nat) : List Byte :=
  [byteOf r.desc.val, byteOf r.lane.val] ++ le16 r.label.toNat ++ [r.outcome.code, r.finalStates.p0.code,
    r.finalStates.p1.code, r.finalStates.p2.code, r.finalStates.p3.code] ++ le16 r.submitCycle.toNat ++
    stampBytes r.stamp ++ [byteOf r.attempts, byteOf count]

/-- GET_REPORT at the Report Unit (R132). -/
def getReport (s : State) (p : Port) : List Byte → State × Answer
  | [] =>
    memberOnly s p <|
      match (s.rpt.get p).queue with
      | [] => refuse s .empty
      | r :: rest => reply (s.modRpt p fun t => { t with queue := rest }) .ok (reportBytes r rest.length)
  | _ => refuse s .badLength

/-- GET_REPORT. -/
def execGetReport (p : Port) (payload : List Byte) (s : State) : Result :=
  command (.getReport p payload) p s fun s => getReport s p payload

/-- R134: p's report queue is emptied, every record unread. -/
def State.leaveReports (s : State) (p : Port) : State := s.modRpt p fun t => { t with queue := [] }

/-- R134: PORT_RESET clears reports_lost. -/
def Rpt.clearLost (t : Rpt) : Rpt := { t with lost := 0 }

end Sys2Proof.Machine
end

