-- ==== Sys2Proof/Machine/Attention.lean ====
section
/-! DEFINITION. Attention Unit: GET_EVENTS, CLEAR_EVENTS, SET_EVENT_MASK and READ_COUNTERS
(09_attention_events_and_counters.md). -/

namespace Sys2Proof.Machine

open Sys2Proof

/-- GET_EVENTS at the Attention Unit (R139, R140). -/
def getEvents (s : State) (p : Port) : List Byte → State × Answer
  | [] =>
    let a := s.att.get p
    reply (s.modAtt p Att.takeSnapshot) .ok
      (a.nextSnapshot :: eventSetBytes a.latched ++ eventSetBytes a.renewed ++ eventSetBytes a.mask)
  | _ => refuse s .badLength

/-- GET_EVENTS. -/
def execGetEvents (p : Port) (payload : List Byte) (s : State) : Result :=
  command (.getEvents p payload) p s fun s => getEvents s p payload

/-- CLEAR_EVENTS at the Attention Unit (R139, R141). -/
def clearEvents (s : State) (p : Port) : List Byte → State × Answer
  | [n] =>
    let a := s.att.get p
    match a.snapshot with
    | none => refuse s .staleSnapshot
    | some sn =>
      if sn.number ≠ n then reply s .staleSnapshot [sn.number]
      else reply (s.modAtt p fun a => a.clearKinds sn) .ok
        (eventSetBytes (a.latched &&& a.clearable sn) ++ eventSetBytes (a.clearKinds sn).latched)
  | _ => refuse s .badLength

/-- CLEAR_EVENTS. -/
def execClearEvents (p : Port) (payload : List Byte) (s : State) : Result :=
  command (.clearEvents p payload) p s fun s => clearEvents s p payload

/-- SET_EVENT_MASK at the Attention Unit (R139, R142). -/
def setEventMask (s : State) (p : Port) : List Byte → State × Answer
  | [lo, hi] =>
    match eventSetOf lo hi with
    | none => refuse s .badArgument
    | some m => reply (s.modAtt p fun a => a.setMask m) .ok (eventSetBytes m)
  | _ => refuse s .badLength

/-- SET_EVENT_MASK. -/
def execSetEventMask (p : Port) (payload : List Byte) (s : State) : Result :=
  command (.setEventMask p payload) p s fun s => setEventMask s p payload

/-- The ten counters of a port, in the order of Table 9-4. -/
def State.counters (s : State) (q : Port) : List Half :=
  let l := s.link.get q
  let r := s.mst.refusals.get q
  let x := s.rx.get q
  [l.crcErrors, l.abortedRequests, l.replays, r.descriptor, r.quota, r.pool, x.rxMissed, x.leaseExpiries,
    x.deliveriesExpired, (s.rpt.get q).lost]

/-- The three link counters at 0 (R176, R177). -/
def Link.clearCounters (l : Link) : Link := { l with crcErrors := 0, abortedRequests := 0, replays := 0 }

/-- The refusal counters, the receive counters and reports_lost of `p` at 0 (R163, step 2). -/
def State.clearBlockCounters (s : State) (p : Port) : State :=
  ((s.modRefusals p fun _ => ⟨0, 0, 0⟩).modRx p Rx.clearCounters).modRpt p Rpt.clearLost

/-- The ten counters of `p` at 0 (R144). -/
def State.clearCounters (s : State) (p : Port) : State := (s.clearBlockCounters p).modLink p Link.clearCounters

/-- The READ_COUNTERS response (Table 11-22). -/
def countersBytes (s : State) (q : Port) : List Byte :=
  portByte q :: (s.counters q).flatMap fun c => le16 c.toNat

/-- READ_COUNTERS at the Attention Unit (R139, R144). -/
def readCounters (s : State) (p : Port) : List Byte → State × Answer
  | [port, action] =>
    match portOf port, counterActionOf action with
    | some q, some .keep => reply s .ok (countersBytes s q)
    | some q, some .clear => if q = p then reply (s.clearCounters p) .ok (countersBytes s q) else refuse s .notOwner
    | _, _ => refuse s .badArgument
  | _ => refuse s .badLength

/-- READ_COUNTERS. -/
def execReadCounters (p : Port) (payload : List Byte) (s : State) : Result :=
  command (.readCounters p payload) p s fun s => readCounters s p payload

end Sys2Proof.Machine
end

