-- ==== Sys2Proof/Machine/Calendar.lean ====
section
/-! DEFINITION. Calendar Store: READ_ENTRY, CLAIM, WRITE_ENTRY, CLEAR_ENTRY, DISOWN, READ_HEADER and SET_FRAME
(03_calendar_banks.md), the readiness clearing a SET_FRAME in SETUP shares with the setup writes (R154), and the
calendar parts of a leave, of the start of RUN and of the return to SETUP (R57, R58). -/

namespace Sys2Proof.Machine

open Sys2Proof

/-! ## Reading -/

/-- The bank a selector names (R44). -/
def Cal.selected (c : Cal) : Selector → BankId
  | .active => c.active
  | .shadow => c.active.other

/-- The READ_ENTRY response: bank letter, kind, owner, lane, burst; lane and burst zero for EMPTY. -/
def entryBytes (i : BankId) (e : Entry) : List Byte :=
  match e.release with
  | none => [i.code, 0, ownerByte e.owner, 0, 0]
  | some r => [i.code, 1, ownerByte e.owner, byteOf r.lane.val, byteOf r.burst]

/-- READ_ENTRY at the Calendar Store (R44). -/
def readEntry (s : State) : List Byte → State × Answer
  | [sel, index] =>
    match selectorOf sel with
    | none => refuse s .badArgument
    | some sl =>
      let i := s.cal.selected sl
      reply s .ok (entryBytes i ((s.cal.bank i).entries.at (entryOf index)))
  | _ => refuse s .badLength

/-- READ_ENTRY. -/
def execReadEntry (p : Port) (payload : List Byte) (s : State) : Result :=
  command (.readEntry p payload) p s fun s => readEntry s payload

/-- The bytes of a header. -/
def Header.bytes (h : Header) : List Byte := le16 h.slots ++ le16 h.length

/-- READ_HEADER at the Calendar Store (R45). -/
def readHeader (s : State) : List Byte → State × Answer
  | [] => reply s .ok (s.cal.active.code :: s.cal.activeBank.header.bytes ++ s.cal.shadow.header.bytes)
  | _ => refuse s .badLength

/-- READ_HEADER. -/
def execReadHeader (p : Port) (payload : List Byte) (s : State) : Result :=
  command (.readHeader p payload) p s fun s => readHeader s payload

/-! ## Editing entries -/

/-- The bank with one entry replaced. -/
def Bank.put (b : Bank) (i : EntryId) (e : Entry) : Bank := { b with entries := b.entries.put i e }

/-- The state with one shadow entry replaced. -/
def State.putEntry (s : State) (i : EntryId) (e : Entry) : State :=
  { s with cal := s.cal.setShadow (s.cal.shadow.put i e) }

/-- The shadow entry of an index. -/
def State.shadowEntry (s : State) (i : EntryId) : Entry := s.cal.shadow.entries.at i

/-- The checks of Table 3-5 from the second on, for an edit without arguments of its own: RUN, ONLINE, not frozen. -/
def editChecks (s : State) (p : Port) (act : State × Answer) : State × Answer :=
  memberOnly s p <| if s.frozen then refuse s .frozen else act

/-- CLAIM at the Calendar Store (R47, R49). -/
def claim (s : State) (p : Port) : List Byte → State × Answer
  | [index] =>
    editChecks s p <|
      match (s.shadowEntry (entryOf index)).owner with
      | none => reply (s.putEntry (entryOf index) ⟨none, some p⟩) .ok []
      | some q => if q = p then reply s .ok [] else refuse s .taken
  | _ => refuse s .badLength

/-- CLAIM. -/
def execClaim (p : Port) (payload : List Byte) (s : State) : Result :=
  command (.claim p payload) p s fun s => claim s p payload

/-- The burst of a byte, 1 to 4 (Table 3-5, check 4). -/
def burstOf (b : Byte) : Option Nat := if 1 ≤ b.toNat ∧ b.toNat ≤ 4 then some b.toNat else none

/-- WRITE_ENTRY at the Calendar Store (R47, R50). -/
def writeEntry (s : State) (p : Port) : List Byte → State × Answer
  | [index, lane, burst] =>
    memberOnly s p <|
      match laneOf lane, burstOf burst with
      | some l, some b =>
        if s.frozen then refuse s .frozen
        else if (s.shadowEntry (entryOf index)).owner ≠ some p then refuse s .notOwner
        else if (s.lane l).state = .closed then refuse s .laneState
        else if (s.lane l).owner ≠ some p then refuse s .notOwner
        else if (s.lane l).state ≠ .opened then refuse s .laneState
        else reply (s.putEntry (entryOf index) ⟨some ⟨l, b⟩, some p⟩) .ok []
      | _, _ => refuse s .badArgument
  | _ => refuse s .badLength

/-- WRITE_ENTRY. -/
def execWriteEntry (p : Port) (payload : List Byte) (s : State) : Result :=
  command (.writeEntry p payload) p s fun s => writeEntry s p payload

/-- CLEAR_ENTRY at the Calendar Store (R47, R51). -/
def clearEntry (s : State) (p : Port) : List Byte → State × Answer
  | [index] =>
    editChecks s p <|
      if (s.shadowEntry (entryOf index)).owner ≠ some p then refuse s .notOwner
      else reply (s.putEntry (entryOf index) ⟨none, some p⟩) .ok []
  | _ => refuse s .badLength

/-- CLEAR_ENTRY. -/
def execClearEntry (p : Port) (payload : List Byte) (s : State) : Result :=
  command (.clearEntry p payload) p s fun s => clearEntry s p payload

/-- DISOWN at the Calendar Store (R47, R52). -/
def disown (s : State) (p : Port) : List Byte → State × Answer
  | [index] =>
    editChecks s p <|
      if (s.shadowEntry (entryOf index)).owner ≠ some p then refuse s .notOwner
      else reply (s.putEntry (entryOf index) Entry.unowned) .ok []
  | _ => refuse s .badLength

/-- DISOWN. -/
def execDisown (p : Port) (payload : List Byte) (s : State) : Result :=
  command (.disown p payload) p s fun s => disown s p payload

/-! ## The shadow header -/

/-- The ports that hold a READY mark, in ascending order. -/
def State.readyPorts (s : State) : List Port := Port.all.filter fun q => s.portState q == .ready

/-- R154: one READY port becomes OFFLINE and is told. -/
def clearReadyMark (s : State) (p : Port) : State := (s.setPort p .offline).raise .readyCleared p

/-- R154: every READY mark is cleared, in ascending port order. -/
def State.clearReady (s : State) : State := s.readyPorts.foldl clearReadyMark s

/-- The header two 16-bit values give, if both are in range (Table 3-1). -/
def headerOf (slots length : Nat) : Option Header :=
  if 4 ≤ slots ∧ slots ≤ 256 ∧ 50 ≤ length ∧ length ≤ 65535 then some ⟨slots, length⟩ else none

/-- The bank with its header replaced. -/
def Bank.setHeader (b : Bank) (h : Header) : Bank := { b with header := h }

/-- The state with the shadow header written (R53). -/
def State.setShadowHeader (s : State) (h : Header) : State :=
  { s with cal := s.cal.setShadow (s.cal.shadow.setHeader h) }

/-- R53, R154: a SET_FRAME accepted in SETUP; a change clears every READY mark. -/
def State.frameInSetup (s : State) (h : Header) : State :=
  if s.cal.shadow.header = h then s.setShadowHeader h else (s.setShadowHeader h).clearReady

/-- SET_FRAME at the Calendar Store (R53). -/
def setFrame (s : State) (p : Port) : List Byte → State × Answer
  | [n0, n1, t0, t1] =>
    let h := headerOf (u16 n0 n1) (u16 t0 t1)
    if s.inRun then
      if !s.online p then refuse s .notMember
      else match h with
        | none => refuse s .badArgument
        | some h => if s.frozen then refuse s .frozen else reply (s.setShadowHeader h) .ok []
    else match h with
      | none => refuse s .badArgument
      | some h => reply (s.frameInSetup h) .ok []
  | _ => refuse s .badLength

/-- SET_FRAME. -/
def execSetFrame (p : Port) (payload : List Byte) (s : State) : Result :=
  command (.setFrame p payload) p s fun s => setFrame s p payload

/-! ## Membership changes -/

/-- An entry after the leave of `p` (R57). -/
def Entry.without (p : Port) (e : Entry) : Entry := if e.owner = some p then Entry.unowned else e

/-- R57: every shadow entry owned by `p` becomes EMPTY and unowned. -/
def State.leaveShadow (s : State) (p : Port) : State :=
  { s with cal := s.cal.setShadow { s.cal.shadow with entries := s.cal.shadow.entries.map (Entry.without p) } }

/-- R58: at the start of RUN the shadow header is copied into the active bank. -/
def State.copyHeader (s : State) : State :=
  { s with cal := s.cal.setActive (s.cal.activeBank.setHeader s.cal.shadow.header) }

/-- A bank with every entry EMPTY and unowned. -/
def Bank.cleared (b : Bank) : Bank := { b with entries := Tbl.fill 256 Entry.unowned }

/-- R58: at the return to SETUP every entry of both banks is cleared; headers and the active selection are kept. -/
def State.clearBanks (s : State) : State :=
  { s with cal := { s.cal with bankA := s.cal.bankA.cleared, bankB := s.cal.bankB.cleared } }

end Sys2Proof.Machine
end

