-- ==== Sys2Proof/Machine/Lanes.lean ====
section
/-! DEFINITION. Lane Unit and allocation: OPEN_LANE, CLOSE_LANE, PURGE_LANE, LANE_INFO and SEND (02_lanes.md,
01_message_store.md 1.3), and the lane part of a leave (R38). -/

namespace Sys2Proof.Machine

open Sys2Proof

/-- The checks of Table 2-4 from the second on: RUN, ONLINE, lane 0 to 31. -/
def laneChecks (s : State) (p : Port) (lane : Byte) (act : LaneId → State × Answer) : State × Answer :=
  memberOnly s p <|
    match laneOf lane with
    | none => refuse s .badArgument
    | some l => act l

/-! ## Opening -/

/-- Every port of a set is enabled (R26). -/
def State.allEnabled (s : State) (t : PortSet) : Bool := (PortSet.toList t).all fun p => s.portState p != .disabled

/-- R26, check 1: the settings the argument bytes give, if they are all in range. -/
def openSettings (s : State) (p : Port) (dest depth policy mode age : Byte) : Option LaneSettings :=
  match portSetOf dest, policyOf policy, reportModeOf mode with
  | some t, some pol, some rm =>
    if PortSet.toList t != [] && s.allEnabled t && decide (1 ≤ depth.toNat) && decide (depth.toNat ≤ 32) then
      some { owner := p, dest := t, depth := depth.toNat, policy := pol, reportMode := rm, maxAge := age.toNat }
    else none
  | _, _, _ => none

/-- An entry of either bank names a lane (R26, check 3). -/
def Cal.names (c : Cal) (l : LaneId) : Bool := c.bankA.names l || c.bankB.names l

/-- R27: the lane becomes OPEN with the settings and zeroed counters. -/
def openedLane (settings : LaneSettings) (ln : Lane) : Lane :=
  { ln with state := .opened, settings := some settings, counters := LaneCounters.zero }

/-- OPEN_LANE at the Lane Unit (R25, R26, R27). -/
def openLane (s : State) (p : Port) : List Byte → State × Answer
  | [lane, dest, depth, policy, mode, age] =>
    laneChecks s p lane fun l =>
      match openSettings s p dest depth policy mode age with
      | none => refuse s .badArgument
      | some st =>
        if (s.lane l).state != .closed then refuse s .laneState
        else if s.cal.names l then refuse s .laneScheduled
        else reply (s.modLane l (openedLane st)) .ok []
  | _ => refuse s .badLength

/-- OPEN_LANE. -/
def execOpenLane (p : Port) (payload : List Byte) (s : State) : Result :=
  command (.openLane p payload) p s fun s => openLane s p payload

/-! ## Closing -/

/-- A lane with its state replaced. -/
def Lane.become (st : LaneState) (ln : Lane) : Lane := { ln with state := st }

/-- The state CLOSE_LANE leaves an OPEN lane in (R33). -/
def Lane.closeState (ln : Lane) : LaneState := if ln.queue = [] then .closed else .draining

/-- CLOSE_LANE at the Lane Unit (R25, R32, R33). -/
def closeLane (s : State) (p : Port) : List Byte → State × Answer
  | [lane] =>
    laneChecks s p lane fun l =>
      let ln := s.lane l
      if ln.state = .closed then refuse s .laneState
      else if ln.owner != some p then refuse s .notOwner
      else if ln.state = .draining then refuse s .laneState
      else if s.frozen && s.cal.shadow.names l then refuse s .inPlan
      else reply (s.modLane l (Lane.become ln.closeState)) .ok [ln.closeState.code]
  | _ => refuse s .badLength

/-- CLOSE_LANE. -/
def execCloseLane (p : Port) (payload : List Byte) (s : State) : Result :=
  command (.closeLane p payload) p s fun s => closeLane s p payload

/-! ## Purging -/

/-- The lane without the head of its pending queue. -/
def Lane.pop (ln : Lane) : Lane := { ln with queue := ln.queue.tail }

/-- R35: the descriptors of a lane's queue, head first, are removed one at a time, each ending PURGED. -/
def purgeQueue (l : LaneId) : List DescId → State → State
  | [], s => s
  | d :: ds, s => purgeQueue l ds ((s.modLane l Lane.pop).endMessage d .purged)

/-- R35: the whole pending queue of a lane is purged. -/
def State.purge (s : State) (l : LaneId) : State := purgeQueue l (s.lane l).queue s

/-- The state PURGE_LANE leaves a lane in (R35): a DRAINING lane becomes CLOSED. -/
def Lane.purgeState (ln : Lane) : LaneState := if ln.state = .draining then .closed else ln.state

/-- PURGE_LANE at the Lane Unit (R25, R35). -/
def purgeLane (s : State) (p : Port) : List Byte → State × Answer
  | [lane] =>
    laneChecks s p lane fun l =>
      let ln := s.lane l
      if ln.state = .closed then refuse s .laneState
      else if ln.owner != some p then refuse s .notOwner
      else reply ((s.purge l).modLane l (Lane.become ln.purgeState)) .ok [byteOf ln.queue.length, ln.purgeState.code]
  | _ => refuse s .badLength

/-- PURGE_LANE. -/
def execPurgeLane (p : Port) (payload : List Byte) (s : State) : Result :=
  command (.purgeLane p payload) p s fun s => purgeLane s p payload

/-- R38: one lane's part of the leave of `p`. -/
def leaveLane (p : Port) (s : State) (l : LaneId) : State :=
  if (s.lane l).state != .closed && (s.lane l).owner == some p then
    (s.purge l).modLane l (Lane.become .closed)
  else s

/-- R38: every OPEN or DRAINING lane of `p` is purged and closed, in ascending lane number. -/
def State.leaveLanes (s : State) (p : Port) : State := (List.finRange 32).foldl (leaveLane p) s

/-! ## Information -/

/-- The settings bytes of LANE_INFO: zeros when the settings are absent (R178). -/
def settingsBytes : Option LaneSettings → List Byte
  | none => [0, 0, 0, 0, 0, 0]
  | some t => [portByte t.owner, portSetByte t.dest, byteOf t.depth, t.policy.code, t.reportMode.code, byteOf t.maxAge]

/-- The head bytes of LANE_INFO: the head descriptor and its submit cycle, or zeros. -/
def headBytes (s : State) (ln : Lane) : List Byte :=
  match ln.queue with
  | [] => [0, 0, 0]
  | d :: _ => byteOf d.val :: le16 (match s.desc d with
    | some m => m.submitCycle.toNat
    | none => 0)

/-- The counter bytes of LANE_INFO. -/
def LaneCounters.bytes (c : LaneCounters) : List Byte :=
  le16 c.sent.toNat ++ le16 c.released.toNat ++ le16 c.missed.toNat ++ le16 c.stale.toNat ++
    le16 c.heldSlots.toNat ++ le16 c.idleSlots.toNat

/-- The LANE_INFO response (Table 2-6, Table 11-21). -/
def laneInfoBytes (s : State) (l : LaneId) : List Byte :=
  let ln := s.lane l
  let flags := bitOf ln.settings.isSome 0 ||| bitOf (ln.queue != []) 1 ||| bitOf (s.cal.activeBank.names l) 2 |||
    bitOf (s.cal.shadow.names l) 3
  [byteOf l.val, ln.state.code, flags] ++ settingsBytes ln.settings ++ [byteOf ln.queue.length] ++ headBytes s ln ++
    ln.counters.bytes

/-- LANE_INFO at the Lane Unit (R25, R37). -/
def laneInfo (s : State) (p : Port) : List Byte → State × Answer
  | [lane] => laneChecks s p lane fun l => reply s .ok (laneInfoBytes s l)
  | _ => refuse s .badLength

/-- LANE_INFO. -/
def execLaneInfo (p : Port) (payload : List Byte) (s : State) : Result :=
  command (.laneInfo p payload) p s fun s => laneInfo s p payload

/-! ## Submitting -/

/-- What SEND hands to the Message Store (1.3). -/
structure Allocation where
  source : Port
  lane : LaneId
  label : Half
  data : List Byte
  reportMode : ReportMode
  dest : PortSet

/-- Buffers an allocation request needs. -/
def Allocation.buffers (a : Allocation) : Nat := buffersFor a.data.length

/-- R10, check 3: the sum of the unmet reserves with the source's held count after the grant. -/
def State.unmetAfter (s : State) (p : Port) (k : Nat) : Nat :=
  Port.sum fun q => unmet (s.params q).reserve (if q = p then s.mst.held.get q + k else s.mst.held.get q)

/-- R10, checks 2 and 3, for the lowest FREE descriptor: the status on failure, or the descriptor. -/
def State.allocCheck (s : State) (p : Port) (k : Nat) : Except Status DescId :=
  match s.lowestFree with
  | none => .error .noDescriptor
  | some d =>
    if (s.params p).ceiling < s.mst.held.get p + k then .error .quota
    else if s.freeCount < k + s.unmetAfter p k then .error .pool
    else .ok d

/-- R10, Table 1-5: the refusal counter a status raises. -/
def Refusals.count (st : Status) (r : Refusals) : Refusals :=
  if st = .noDescriptor then { r with descriptor := bump r.descriptor }
  else if st = .quota then { r with quota := bump r.quota }
  else { r with pool := bump r.pool }

/-- R2, R4, R5, R6, R11: the descriptor a grant writes. -/
def Allocation.descriptor (a : Allocation) (fragments : List BufId) (cycle : Half) : Desc :=
  { state := .pending
    source := a.source
    lane := a.lane
    label := a.label
    length := a.data.length
    fragments := fragments
    reportMode := a.reportMode
    submitCycle := cycle
    stamp := none
    dest := a.dest
    delivery := PerPort.ofFn fun q => if a.dest.get q then .waiting else .notDest
    attempts := PerPort.fill 0
    outstanding := 0 }

/-- R11: the grant of a request in descriptor `d`. -/
def State.grant (s : State) (d : DescId) (a : Allocation) : State :=
  let fragments := s.mst.free.take a.buffers
  { s with
    mst := { s.mst with
      desc := s.mst.desc.put d (some (a.descriptor fragments s.timer.cycle))
      pool := Memory.store fragments 0 a.data s.mst.pool
      free := s.mst.free.drop a.buffers
      held := s.mst.held.modify a.source (· + a.buffers) } }

/-- R30: the descriptor joins the lane's queue at the tail and the sent counter rises. -/
def Lane.append (d : DescId) (ln : Lane) : Lane :=
  { ln with queue := ln.queue ++ [d], counters := { ln.counters with sent := bump ln.counters.sent } }

/-- R10, R11, R30: an allocation request is refused or granted, and a granted descriptor joins the lane's queue. -/
def State.allocate (s : State) (a : Allocation) : State × Answer :=
  match s.allocCheck a.source a.buffers with
  | .error st => refuse (s.modRefusals a.source (Refusals.count st)) st
  | .ok d =>
    let s' := (s.grant d a).modLane a.lane (Lane.append d)
    reply s' .ok (byteOf d.val :: le16 s.timer.cycle.toNat ++ [byteOf (s'.lane a.lane).queue.length])

/-- SEND at the Lane Unit and the Message Store (R25, R29, R30, R10, R11). -/
def send (s : State) (p : Port) : List Byte → State × Answer
  | lane :: l0 :: l1 :: data =>
    if data.length = 0 || decide (256 < data.length) then refuse s .badLength
    else laneChecks s p lane fun l =>
      let ln := s.lane l
      if ln.state = .closed then refuse s .laneState
      else match ln.settings with
        | none => refuse s .notOwner
        | some t =>
          if t.owner ≠ p then refuse s .notOwner
          else if ln.state ≠ .opened then refuse s .laneState
          else if t.depth ≤ ln.queue.length then refuse s .laneFull
          else s.allocate { source := p, lane := l, label := BitVec.ofNat 16 (u16 l0 l1), data := data,
                            reportMode := t.reportMode, dest := t.dest }
  | _ => refuse s .badLength

/-- SEND. -/
def execSend (p : Port) (payload : List Byte) (s : State) : Result :=
  command (.send p payload) p s fun s => send s p payload

end Sys2Proof.Machine
end

