-- ==== Sys2Proof/Machine/Plan.lean ====
section
/-! DEFINITION. Plan Coordinator: PROPOSE, VOTE, WITHDRAW and PLAN_STATUS, decisions, cycle boundaries and the plan part
of a leave (04_plan_proposals.md), with the shadow validation (R55) and the swap (R56) it asks of the Calendar Store. -/

namespace Sys2Proof.Machine

open Sys2Proof

/-! ## Summary and status bytes -/

/-- The last-outcome bytes: presence, number, outcome, cause. -/
def lastBytes : Option LastOutcome → List Byte
  | none => [0, 0, 0, 0]
  | some o => [1, o.number, o.outcome.code, o.outcome.cause]

/-- The number of the standing proposal, 0 in NONE. -/
def proposalNumberByte : Option Proposal → Byte
  | none => 0
  | some r => r.number

/-- The plan summary (R61; Table 11-20, bytes 0, 1 and 6 to 9). -/
def Plan.summary (c : Plan) : List Byte :=
  proposalStateCode c.proposal :: proposalNumberByte c.proposal :: lastBytes c.last

/-- Bytes 1 to 5 of PLAN_STATUS: zeros in NONE. -/
def proposalBytes : Option Proposal → List Byte
  | none => [0, 0, 0, 0, 0]
  | some r => [r.number, portByte r.proposer, portSetByte r.voters, portSetByte r.yes, byteOf r.remaining]

/-- The PLAN_STATUS response (Table 4-8, Table 11-20). -/
def planStatusBytes (s : State) : List Byte :=
  proposalStateCode s.plan.proposal :: proposalBytes s.plan.proposal ++ lastBytes s.plan.last ++
    [s.plan.nextNumber, byteOf s.mbc.deadline]

/-! ## Decisions -/

/-- The proposer and the voters of a proposal, in ascending port order. -/
def Proposal.members (r : Proposal) : List Port := Port.all.filter fun q => q == r.proposer || r.voters.get q

/-- R70: a proposal is decided. -/
def State.decidePlan (s : State) (r : Proposal) (o : PlanOutcome) : State :=
  let s' := { s with plan := { s.plan with last := some ⟨r.number, o⟩ } }
  let s'' := s'.raiseAll .planDecided (r.members.filter s'.online)
  { s'' with plan := { s''.plan with proposal := none } }

/-- Every port of a voter set has vote YES. -/
def Proposal.allYes (r : Proposal) : Bool := Port.all.all fun q => !r.voters.get q || r.yes.get q

/-- OPEN becomes ACCEPTED when every voter has voted YES (R66, R74). -/
def Proposal.update (r : Proposal) : Proposal :=
  if r.state = .opened && r.allYes then { r with state := .accepted } else r

/-- The state with the standing proposal replaced. -/
def State.setProposal (s : State) (r : Proposal) : State := { s with plan := { s.plan with proposal := some r } }

/-! ## Validation and swap -/

/-- R55: the entry `e` at index `i` of the shadow is bad: it is RELEASE, and its index is at or above the shadow header's
slots per cycle, or the lane it names is not OPEN, or that lane's owner is not the entry's. -/
def State.badEntry (s : State) (i : EntryId) (e : Entry) : Bool :=
  match e.release with
  | none => false
  | some r =>
    decide (s.cal.shadow.header.slots ≤ i.val) || (s.lane r.lane).state != .opened || (s.lane r.lane).owner != e.owner

/-- The entries of a bank with their indices, in ascending index. -/
def Bank.indexed (b : Bank) : List (EntryId × Entry) := (List.finRange 256).zip b.entries.toList

/-- R55: the first bad entry of the shadow in ascending index. -/
def State.firstBad (s : State) : Option EntryId :=
  (s.cal.shadow.indexed.find? fun ie => s.badEntry ie.1 ie.2).map (·.1)

/-- R56: the banks change roles, and the new active bank is copied into the new shadow. -/
def Cal.swap (c : Cal) : Cal :=
  let c' := { c with active := c.active.other }
  c'.setShadow c'.activeBank

/-- R56 on the whole state. -/
def State.swapBanks (s : State) : State := { s with cal := s.cal.swap }

/-! ## Proposing -/

/-- R63: the proposal a PROPOSE from `p` opens. -/
def State.newProposal (s : State) (p : Port) : Proposal :=
  let voters : PortSet := PerPort.ofFn fun q => q != p && s.online q
  { state := if PortSet.toList voters = [] then .accepted else .opened
    number := s.plan.nextNumber
    proposer := p
    voters := voters
    yes := PerPort.fill false
    remaining := s.mbc.deadline }

/-- R60, R63: the proposal is opened, the counter advances, PLAN_OPENED is raised to each voter. -/
def State.openProposal (s : State) (p : Port) : State :=
  let r := s.newProposal p
  let s' := { s with plan := { s.plan with proposal := some r, nextNumber := nextNumber s.plan.nextNumber } }
  s'.raiseAll .planOpened (PortSet.toList r.voters)

/-- PROPOSE at the Plan Coordinator (R62, R63). -/
def propose (s : State) (p : Port) : List Byte → State × Answer
  | [] =>
    memberOnly s p <|
      if s.plan.proposal.isSome then reply s .planBusy s.plan.summary
      else match s.firstBad with
        | some i => reply s .planInvalid [byteOf i.val]
        | none =>
          let r := s.newProposal p
          reply (s.openProposal p) .ok
            [r.number, portSetByte r.voters, byteOf r.remaining, proposalStateCode (some r)]
  | _ => refuse s .badLength

/-- PROPOSE. -/
def execPropose (p : Port) (payload : List Byte) (s : State) : Result :=
  command (.propose p payload) p s fun s => propose s p payload

/-! ## Voting -/

/-- R66: p's vote, none until now, is cast. -/
def State.castVote (s : State) (r : Proposal) (p : Port) : Choice → State
  | .yes => s.setProposal ({ r with yes := r.yes.set p true } : Proposal).update
  | .no => s.decidePlan r (.rejected p)

/-- A state answered with a status and its plan summary (R61). -/
def replySummary (s : State) (st : Status) : State × Answer := reply s st s.plan.summary

/-- VOTE at the Plan Coordinator (R65, R66). -/
def vote (s : State) (p : Port) : List Byte → State × Answer
  | [number, choice] =>
    memberElse s p s.plan.summary <|
      match choiceOf choice with
      | none => replySummary s .badArgument
      | some ch =>
        match s.plan.proposal with
        | none => replySummary s .noProposal
        | some r =>
          if r.number ≠ number then replySummary s .staleNumber
          else if !r.voters.get p then replySummary s .notVoter
          else if r.yes.get p then
            if ch = .yes then replySummary s .ok else replySummary s .voteConflict
          else replySummary (s.castVote r p ch) .ok
  | _ => replySummary s .badLength

/-- VOTE. -/
def execVote (p : Port) (payload : List Byte) (s : State) : Result :=
  command (.vote p payload) p s fun s => vote s p payload

/-! ## Withdrawal -/

/-- WITHDRAW at the Plan Coordinator (R68). -/
def withdraw (s : State) (p : Port) : List Byte → State × Answer
  | [number] =>
    memberElse s p s.plan.summary <|
      match s.plan.proposal with
      | none => replySummary s .noProposal
      | some r =>
        if r.number ≠ number then replySummary s .staleNumber
        else if r.proposer ≠ p then replySummary s .notOwner
        else replySummary (s.decidePlan r .withdrawnByProposer) .ok
  | _ => replySummary s .badLength

/-- WITHDRAW. -/
def execWithdraw (p : Port) (payload : List Byte) (s : State) : Result :=
  command (.withdraw p payload) p s fun s => withdraw s p payload

/-! ## Reading -/

/-- PLAN_STATUS at the Plan Coordinator (R77). -/
def planStatus (s : State) : List Byte → State × Answer
  | [] => if !s.inRun then refuse s .wrongState else reply s .ok (planStatusBytes s)
  | _ => refuse s .badLength

/-- PLAN_STATUS. -/
def execPlanStatus (p : Port) (payload : List Byte) (s : State) : Result :=
  command (.planStatus p payload) p s fun s => planStatus s payload

/-! ## Cycle boundaries and leaves -/

/-- R71: the Plan Coordinator's part of a cycle boundary. -/
def State.planBoundary (s : State) : State :=
  match s.plan.proposal with
  | none => s
  | some r =>
    match r.state with
    | .accepted => (s.decidePlan r .applied).swapBanks
    | .opened =>
      if r.remaining ≤ 1 then s.decidePlan r .lapsedDeadline
      else s.setProposal { r with remaining := r.remaining - 1 }

/-- R73, R74: the Plan Coordinator's part of the leave of `p`. -/
def State.leavePlan (s : State) (p : Port) : State :=
  match s.plan.proposal with
  | none => s
  | some r =>
    if r.proposer = p then s.decidePlan r .withdrawnProposerLeft
    else if s.cal.shadow.ownedBy p then s.decidePlan r .lapsedMemberLeft
    else if r.voters.get p then
      s.setProposal ({ r with voters := r.voters.set p false, yes := r.yes.set p false } : Proposal).update
    else s

end Sys2Proof.Machine
end

