-- ==== Sys2Proof/Machine/Release.lean ====
section
/-! DEFINITION. Release Engine and Cycle Timer: the release pass of a slot start (06_release_engine.md), slot starts,
cycle boundaries and SYNC_OUT (05_cycle_timer.md). -/

namespace Sys2Proof.Machine

open Sys2Proof

/-! ## Destinations -/

/-- Where a destination of a head message stands (R92). -/
inductive Place where
  | gone | room | noRoom
  deriving DecidableEq, Repr

/-- R92: the case of port `d`, counting every delivery already placed at it. -/
def State.place (s : State) (d : Port) : Place :=
  if !s.online d then .gone
  else if (s.rx.get d).occupancy < (s.params d).depth then .room
  else .noRoom

/-- Table 6-2: the delivery state a case leads to at a release. -/
def Place.delivery : Place → Delivery
  | .gone => .abandoned
  | .room => .queued
  | .noRoom => .missed

/-- The destinations of a message in ascending port order. -/
def Desc.dests (m : Desc) : List Port := PortSet.toList m.dest

/-- The destinations of a message in one case. -/
def State.destsAt (s : State) (m : Desc) (c : Place) : List Port := m.dests.filter fun d => s.place d == c

/-! ## Committing a release -/

/-- The descriptor a release leaves (R95, steps 2 to 4). -/
def Desc.released (m : Desc) (st : Stamp) (v : PerPort Delivery) (outstanding : Nat) : Desc :=
  { m with state := .released, stamp := some st, delivery := v, outstanding := outstanding }

/-- R93, R109: a miss at port `d` raises its rx_missed. -/
def countMiss (s : State) (d : Port) : State := s.modRx d fun r => { r with rxMissed := bump r.rxMissed }

/-- R95, step 6: the released and missed counters. -/
def LaneCounters.release (misses : Nat) (c : LaneCounters) : LaneCounters :=
  { c with released := bump c.released, missed := bumpBy misses c.missed }

/-- The lane with its counters passed through a function. -/
def Lane.count (f : LaneCounters → LaneCounters) (ln : Lane) : Lane := { ln with counters := f ln.counters }

/-- R95, R96: the head `d` of lane `l`, with descriptor `m`, is released at stamp `st`; it ends at once if no
destination was QUEUED. -/
def State.commit (s : State) (l : LaneId) (d : DescId) (m : Desc) (st : Stamp) : State :=
  let queued := s.destsAt m .room
  let missed := s.destsAt m .noRoom
  let v := PerPort.ofFn fun q => if m.dest.get q then (s.place q).delivery else m.delivery.get q
  let s1 := (s.modLane l fun ln => (Lane.pop ln).count (LaneCounters.release missed.length)).setDesc d
    (some (m.released st v queued.length))
  let s2 := queued.foldl (fun s q => s.enqueue q d .tail) s1
  let s3 := missed.foldl countMiss s2
  if queued = [] then s3.endMessage d .released else s3

/-! ## The release pass -/

/-- R91: a message is stale at cycle `k`: its lane's max age is not 0 and its age, modulo 65536, exceeds it. -/
def staleAt (maxAge : Nat) (k : Half) (m : Desc) : Bool := maxAge != 0 && decide (maxAge < (k - m.submitCycle).toNat)

/-- R91: the stale head of lane `l` is discarded. -/
def State.discardStale (s : State) (l : LaneId) (d : DescId) : State :=
  ((s.modLane l Lane.pop).endMessage d .stale).modLane l (Lane.count fun c => { c with stale := bump c.stale })

/-- R94: under HOLD, a destination without room holds the head. -/
def State.holds (s : State) (t : LaneSettings) (m : Desc) : Bool := t.policy == .hold && s.destsAt m .noRoom != []

/-- The idle slots counter rises (R97). -/
def Lane.countIdle : Lane → Lane := Lane.count fun c => { c with idleSlots := bump c.idleSlots }

/-- The held slots counter rises (R97). -/
def Lane.countHeld : Lane → Lane := Lane.count fun c => { c with heldSlots := bump c.heldSlots }

/-- R90: the steps of a release pass over lane `l`, for the pending queue as it stands, `left` messages of the burst
still allowed, and whether a message has been released. A descriptor that is FREE, which a queue never holds (R23), is
dropped from the queue. -/
def passLoop (l : LaneId) (t : LaneSettings) (st : Stamp) : List DescId → Nat → Bool → State → State
  | _, 0, _, s => s
  | [], _ + 1, any, s => if any then s else s.modLane l Lane.countIdle
  | d :: ds, left + 1, any, s =>
    match s.desc d with
    | none => passLoop l t st ds (left + 1) any (s.modLane l Lane.pop)
    | some m =>
      if staleAt t.maxAge st.cycle m then passLoop l t st ds (left + 1) any (s.discardStale l d)
      else if s.holds t m then s.modLane l Lane.countHeld
      else passLoop l t st ds left true (s.commit l d m st)

/-- R34, R90: a DRAINING lane whose queue is empty becomes CLOSED, and its owner is told. -/
def State.drained (s : State) (l : LaneId) (owner : Port) : State :=
  if (s.lane l).state = .draining ∧ (s.lane l).queue = [] then
    (s.modLane l (Lane.become .closed)).raise .laneClosed owner
  else s

/-- R89, R90: a release pass over lane `l` with burst allowance `b`. -/
def State.passLane (s : State) (l : LaneId) (b : Nat) (st : Stamp) : State :=
  if (s.lane l).state = .closed then s
  else match (s.lane l).settings with
    | none => s
    | some t => (passLoop l t st (s.lane l).queue b false s).drained l t.owner

/-- The entry of the current slot in the bank for the current cycle (R46, R89). -/
def State.currentEntry (s : State) : Entry := s.cal.activeBank.entries.at ⟨s.timer.slot.toNat, s.timer.slot.isLt⟩

/-- R88, R89: the release pass of the slot start just produced. -/
def State.releasePass (s : State) : State :=
  match s.currentEntry.release with
  | none => s
  | some r => s.passLane r.lane r.burst ⟨s.timer.cycle, s.timer.slot⟩

/-! ## Slot starts and cycle boundaries -/

/-- How long SYNC_OUT stays high at a cycle boundary, in µs (R85). -/
def syncPulse : Time := 8

/-- The timer at a cycle boundary at time `t`, with the header of the active bank (R82, R85). -/
def Timer.atBoundary (tm : Timer) (h : Header) (t : Time) : Timer :=
  { tm with header := h, syncOut := true, syncEnd := some (t + syncPulse) }

/-- R84: a cycle boundary at time `t`: the Plan Coordinator acts, the banks may be swapped, the header is copied from the
bank that results, and SYNC_OUT goes high. -/
def State.boundary (s : State) (t : Time) : State :=
  let s' := s.planBoundary
  { s' with timer := s'.timer.atBoundary s'.cal.activeBank.header t }

/-- R81: the index moves on within the cycle, or a new cycle begins. -/
def State.nextIndex (s : State) (t : Time) : State :=
  if s.timer.slot.toNat + 1 < s.timer.header.slots then { s with timer := { s.timer with slot := s.timer.slot + 1 } }
  else { s with timer := { s.timer with slot := 0, cycle := s.timer.cycle + 1 } }.boundary t

/-- R81: the next slot start falls due one slot length after the present one, by the header copy as it now stands. -/
def State.scheduleNext (s : State) (t : Time) : State :=
  { s with timer := { s.timer with nextSlot := some (t + BitVec.ofNat 32 s.timer.header.length) } }

/-- R81, R83: the slot start due at time `t`. -/
def State.slotStartAt (s : State) (t : Time) : State :=
  ((({ s with timer := s.timer.reach t } : State).nextIndex t).scheduleNext t).releasePass

/-- SLOT_START (R81, R83). In STOPPED the timer produces no slot start (R79); none falls due while RESET_N is low or REFCLK
is stopped (R78). -/
def execSlotStart (s : State) : Result :=
  .next <|
    if s.resetLow || !s.refclk || s.timer.state = .stopped then s
    else match s.timer.nextSlot with
      | none => s
      | some t => s.slotStartAt t

/-- SYNC_OUT_PULSE_END (R85): the pulse in progress ends. -/
def execSyncOutPulseEnd (s : State) : Result :=
  .next <|
    if s.resetLow || !s.refclk then s
    else match s.timer.syncEnd with
      | none => s
      | some t => { s with timer := { s.timer.reach t with syncOut := false, syncEnd := none } }

/-- R80: the timer at the start of RUN: RUNNING, cycle 0, slot 0, a cycle boundary and a slot start now. -/
def State.startTimer (s : State) : State :=
  let t := s.timer.timeBase
  let s' := { s with timer := { s.timer with state := .running, cycle := 0, slot := 0 } }
  ((s'.boundary t).scheduleNext t).releasePass

/-- R86: the timer at the return to SETUP; counter, index and header copy are kept. -/
def Timer.stop (t : Timer) : Timer := { t with state := .stopped, nextSlot := none, syncOut := false, syncEnd := none }

end Sys2Proof.Machine
end

