-- ==== Sys2Proof/Machine/Membership.lean ====
section
/-! DEFINITION. Membership Controller: STATUS, PORT_RESET, the setup writes, READY, UNREADY, JOIN and LEAVE, the start of
RUN and the return to SETUP (10_membership_and_start_up.md). -/

namespace Sys2Proof.Machine

open Sys2Proof

/-! ## STATUS -/

/-- The port states byte: P0 in bits 1 and 0 through P3 in bits 7 and 6 (Table 11-17). -/
def portStatesByte (t : PerPort PortState) : Byte :=
  byteOf (t.p0.code + 4 * t.p1.code + 16 * t.p2.code + 64 * t.p3.code)

/-- The sum of the four ports' reserves (Table 10-7). -/
def State.reserveSum (s : State) : Nat := Port.sum fun q => (s.params q).reserve

/-- The STATUS response (Table 10-7, Table 11-17). -/
def statusBytes (s : State) (p : Port) : List Byte :=
  let w := s.params p
  [portByte p, s.mbc.exchange.code, portStatesByte s.mbc.ports] ++ le16 w.reserve ++ le16 w.ceiling ++
    [byteOf w.depth, byteOf w.watermark] ++ le16 w.leaseTime ++ [byteOf w.redelivery, byteOf s.mbc.deadline] ++
    le16 s.reserveSum ++ [s.timer.state.code] ++ le16 s.timer.cycle.toNat ++ [s.timer.slot] ++
    le16 s.timer.header.slots ++ le16 s.timer.header.length ++ le16 s.freeCount ++ le16 s.freeDescriptors ++
    le16 (s.mst.held.get p) ++ [byteOf (s.rx.get p).queue.length, byteOf (s.rx.get p).heldSlots,
    byteOf (s.rpt.get p).queue.length]

/-- STATUS at the Membership Controller (R164). -/
def status (s : State) (p : Port) : List Byte → State × Answer
  | [] => reply s .ok (statusBytes s p)
  | _ => refuse s .badLength

/-- STATUS. -/
def execStatus (p : Port) (payload : List Byte) (s : State) : Result :=
  command (.status p payload) p s fun s => status s p payload

/-! ## Setup writes -/

/-- Whether a setup write changed a stored value: UNCHANGED 0, CHANGED 1 (R152). -/
def changedByte (b : Bool) : Byte := if b then 1 else 0

/-- The state with one port's parameters replaced. -/
def State.setParams (s : State) (p : Port) (w : Params) : State :=
  { s with mbc := { s.mbc with params := s.mbc.params.set p w } }

/-- R152, R154: p's parameters are written; a change clears every READY mark; the answer says which it was. -/
def State.writeParams (s : State) (p : Port) (w : Params) : State × Answer :=
  if s.params p = w then reply s .ok [changedByte false]
  else reply (s.setParams p w).clearReady .ok [changedByte true]

/-- R153, check 2: the reserve sum with p's reserve replaced. -/
def State.reserveSumWith (s : State) (p : Port) (reserve : Nat) : Nat :=
  Port.sum fun q => if q = p then reserve else (s.params q).reserve

/-- SET_QUOTA at the Membership Controller (R152, R153). -/
def setQuota (s : State) (p : Port) : List Byte → State × Answer
  | [r0, r1, c0, c1] =>
    let r := u16 r0 r1
    let c := u16 c0 c1
    if s.inRun then refuse s .wrongState
    else if 512 < r || c = 0 || decide (512 < c) then refuse s .badArgument
    else if c < r then refuse s .badArgument
    else if 512 < s.reserveSumWith p r then refuse s .limit
    else s.writeParams p { s.params p with reserve := r, ceiling := c }
  | _ => refuse s .badLength

/-- SET_QUOTA. -/
def execSetQuota (p : Port) (payload : List Byte) (s : State) : Result :=
  command (.setQuota p payload) p s fun s => setQuota s p payload

/-- SET_RXQ at the Membership Controller (R152): the watermark is checked against the depth it comes with. -/
def setRxq (s : State) (p : Port) : List Byte → State × Answer
  | [depth, mark] =>
    let d := depth.toNat
    let w := mark.toNat
    if s.inRun then refuse s .wrongState
    else if d < 4 || decide (32 < d) || w = 0 || decide (d < w) then refuse s .badArgument
    else s.writeParams p { s.params p with depth := d, watermark := w }
  | _ => refuse s .badLength

/-- SET_RXQ. -/
def execSetRxq (p : Port) (payload : List Byte) (s : State) : Result :=
  command (.setRxq p payload) p s fun s => setRxq s p payload

/-- SET_LEASE at the Membership Controller (R152). -/
def setLease (s : State) (p : Port) : List Byte → State × Answer
  | [t0, t1, limit] =>
    let t := u16 t0 t1
    if s.inRun then refuse s .wrongState
    else if t = 0 || decide (1000 < t) || decide (7 < limit.toNat) then refuse s .badArgument
    else s.writeParams p { s.params p with leaseTime := t, redelivery := limit.toNat }
  | _ => refuse s .badLength

/-- SET_LEASE. -/
def execSetLease (p : Port) (payload : List Byte) (s : State) : Result :=
  command (.setLease p payload) p s fun s => setLease s p payload

/-- R152, R154: the exchange's proposal deadline is written. -/
def State.writeDeadline (s : State) (n : Nat) : State × Answer :=
  if s.mbc.deadline = n then reply s .ok [changedByte false]
  else reply ({ s with mbc := { s.mbc with deadline := n } } : State).clearReady .ok [changedByte true]

/-- SET_DEADLINE at the Membership Controller (R152). -/
def setDeadline (s : State) : List Byte → State × Answer
  | [n] =>
    if s.inRun then refuse s .wrongState
    else if n.toNat = 0 || decide (15 < n.toNat) then refuse s .badArgument
    else s.writeDeadline n.toNat
  | _ => refuse s .badLength

/-- SET_DEADLINE. -/
def execSetDeadline (p : Port) (payload : List Byte) (s : State) : Result :=
  command (.setDeadline p payload) p s fun s => setDeadline s payload

/-! ## The start handshake -/

/-- R157, part 1: the exchange is in RUN and every READY port ONLINE. -/
def Mbc.start (c : Mbc) : Mbc :=
  { c with exchange := .run, ports := PerPort.ofFn fun q => if c.ports.get q = .ready then .online else c.ports.get q }

/-- R157: the start of RUN, every enabled port being READY: MBC, then CAL, then CYT. -/
def State.startRun (s : State) : State :=
  (({ s with mbc := s.mbc.start } : State).raiseAll .exchangeRun s.readyPorts).copyHeader.startTimer

/-- READY at the Membership Controller (R155, R157). -/
def ready (s : State) (p : Port) : List Byte → State × Answer
  | [] =>
    if s.inRun then refuse s .wrongState
    else
      let s' := if s.portState p = .offline then s.setPort p .ready else s
      let left := s'.offlinePorts
      reply (if s.portState p = .offline ∧ left = [] then s'.startRun else s') .ok [byteOf left.length]
  | _ => refuse s .badLength

/-- READY. -/
def execReady (p : Port) (payload : List Byte) (s : State) : Result :=
  command (.ready p payload) p s fun s => ready s p payload

/-- UNREADY at the Membership Controller (R156). -/
def unready (s : State) (p : Port) : List Byte → State × Answer
  | [] =>
    if s.inRun then refuse s .wrongState
    else reply (if s.portState p = .ready then s.setPort p .offline else s) .ok []
  | _ => refuse s .badLength

/-- UNREADY. -/
def execUnready (p : Port) (payload : List Byte) (s : State) : Result :=
  command (.unready p payload) p s fun s => unready s p payload

/-! ## Joining and leaving -/

/-- JOIN at the Membership Controller (R159). -/
def join (s : State) (p : Port) : List Byte → State × Answer
  | [] =>
    if !s.inRun then refuse s .wrongState
    else if s.online p then refuse s .wrongState
    else reply ((s.setPort p .online).raiseAll .memberChange (s.otherOnline p)) .ok (le16 s.timer.cycle.toNat)
  | _ => refuse s .badLength

/-- JOIN. -/
def execJoin (p : Port) (payload : List Byte) (s : State) : Result :=
  command (.join p payload) p s fun s => join s p payload

/-- R161: the return to SETUP: MBC, then CYT, then CAL. -/
def State.returnToSetup (s : State) : State :=
  ({ s with mbc := { s.mbc with exchange := .setup }, timer := s.timer.stop } : State).clearBanks

/-- R161: the exchange returns to SETUP if no port is ONLINE. -/
def State.endRunIfEmpty (s : State) : State := if Port.all.all fun q => !s.online q then s.returnToSetup else s

/-- R160, Table 10-6: the leave of `p`, parts 1 to 7 in order. -/
def State.leave (s : State) (p : Port) : State :=
  let s1 := (s.setPort p .offline).raiseAll .memberChange (s.otherOnline p)
  (((((s1.leavePlan p).leaveShadow p).leaveLanes p).leaveReceive p).leaveReports p).endRunIfEmpty

/-- LEAVE at the Membership Controller (R160). -/
def leave (s : State) (p : Port) : List Byte → State × Answer
  | [] =>
    if !s.inRun then refuse s .wrongState
    else if !s.online p then refuse s .notMember
    else reply (s.leave p) .ok []
  | _ => refuse s .badLength

/-- LEAVE. -/
def execLeave (p : Port) (payload : List Byte) (s : State) : Result :=
  command (.leave p payload) p s fun s => leave s p payload

/-! ## Port reset -/

/-- R163, part 1: the membership part by p's state. -/
def State.resetMembership (s : State) (p : Port) : State :=
  match s.portState p with
  | .online => s.leave p
  | .ready => s.setPort p .offline
  | .offline => s
  | .disabled => s

/-- R177: the link record and the link counters are cleared. -/
def Link.clearRecord (l : Link) : Link := { l.clearCounters with record := none }

/-- R163: PORT_RESET's parts in order: membership, counters (with the last ends of R124), link, attention. -/
def State.resetPort (s : State) (p : Port) : State :=
  ((((s.resetMembership p).clearBlockCounters p).modRx p Rx.clearEnds).modLink p Link.clearRecord).modAtt p Att.clearAll

/-- PORT_RESET at the Membership Controller (R163). -/
def portReset (s : State) (p : Port) : List Byte → State × Answer
  | [] => reply (s.resetPort p) .ok [byteOf ((s.resetPort p).portState p).code]
  | _ => refuse s .badLength

/-- PORT_RESET. -/
def execPortReset (p : Port) (payload : List Byte) (s : State) : Result :=
  command (.portReset p payload) p s fun s => portReset s p payload

end Sys2Proof.Machine
end

