-- ==== Sys2Proof/Machine/Dispatch.lean ====
section
/-! DEFINITION. `exec`: one arm per row of spec/opcode_table.json, each a direct call of the command's meaning. -/

namespace Sys2Proof.Machine

open Sys2Proof

def exec (i : Instr) (s : State) : Host.Outcome State Fault Refusal :=
  match i with
  | .resetNAssert => Sys2Proof.Machine.execResetNAssert s
  | .resetNRelease straps => Sys2Proof.Machine.execResetNRelease straps s
  | .refclkStop => Sys2Proof.Machine.execRefclkStop s
  | .refclkResume => Sys2Proof.Machine.execRefclkResume s
  | .csNFall p => Sys2Proof.Machine.execCsNFall p s
  | .csNRise p bytes => Sys2Proof.Machine.execCsNRise p bytes s
  | .lengthAbove272 p code tag length => Sys2Proof.Machine.execLengthAbove272 p code tag length s
  | .requestReceived p code tag payload crc => Sys2Proof.Machine.execRequestReceived p code tag payload crc s
  | .executionEnd p => Sys2Proof.Machine.execExecutionEnd p s
  | .responseSent p => Sys2Proof.Machine.execResponseSent p s
  | .status p payload => Sys2Proof.Machine.execStatus p payload s
  | .repeatLast p payload => Sys2Proof.Machine.execRepeatLast p payload s
  | .portReset p payload => Sys2Proof.Machine.execPortReset p payload s
  | .readCounters p payload => Sys2Proof.Machine.execReadCounters p payload s
  | .setQuota p payload => Sys2Proof.Machine.execSetQuota p payload s
  | .setRxq p payload => Sys2Proof.Machine.execSetRxq p payload s
  | .setLease p payload => Sys2Proof.Machine.execSetLease p payload s
  | .setDeadline p payload => Sys2Proof.Machine.execSetDeadline p payload s
  | .setFrame p payload => Sys2Proof.Machine.execSetFrame p payload s
  | .ready p payload => Sys2Proof.Machine.execReady p payload s
  | .unready p payload => Sys2Proof.Machine.execUnready p payload s
  | .join p payload => Sys2Proof.Machine.execJoin p payload s
  | .leave p payload => Sys2Proof.Machine.execLeave p payload s
  | .openLane p payload => Sys2Proof.Machine.execOpenLane p payload s
  | .closeLane p payload => Sys2Proof.Machine.execCloseLane p payload s
  | .purgeLane p payload => Sys2Proof.Machine.execPurgeLane p payload s
  | .laneInfo p payload => Sys2Proof.Machine.execLaneInfo p payload s
  | .send p payload => Sys2Proof.Machine.execSend p payload s
  | .fetch p payload => Sys2Proof.Machine.execFetch p payload s
  | .reread p payload => Sys2Proof.Machine.execReread p payload s
  | .ack p payload => Sys2Proof.Machine.execAck p payload s
  | .returnLease p payload => Sys2Proof.Machine.execReturnLease p payload s
  | .getReport p payload => Sys2Proof.Machine.execGetReport p payload s
  | .readEntry p payload => Sys2Proof.Machine.execReadEntry p payload s
  | .claim p payload => Sys2Proof.Machine.execClaim p payload s
  | .writeEntry p payload => Sys2Proof.Machine.execWriteEntry p payload s
  | .clearEntry p payload => Sys2Proof.Machine.execClearEntry p payload s
  | .disown p payload => Sys2Proof.Machine.execDisown p payload s
  | .readHeader p payload => Sys2Proof.Machine.execReadHeader p payload s
  | .propose p payload => Sys2Proof.Machine.execPropose p payload s
  | .vote p payload => Sys2Proof.Machine.execVote p payload s
  | .withdraw p payload => Sys2Proof.Machine.execWithdraw p payload s
  | .planStatus p payload => Sys2Proof.Machine.execPlanStatus p payload s
  | .getEvents p payload => Sys2Proof.Machine.execGetEvents p payload s
  | .clearEvents p payload => Sys2Proof.Machine.execClearEvents p payload s
  | .setEventMask p payload => Sys2Proof.Machine.execSetEventMask p payload s
  | .slotStart => Sys2Proof.Machine.execSlotStart s
  | .leaseExpiry p n => Sys2Proof.Machine.execLeaseExpiry p n s
  | .syncOutPulseEnd => Sys2Proof.Machine.execSyncOutPulseEnd s

end Sys2Proof.Machine
end

