-- ==== Sys2Proof/Config.lean ====
section
/-! DEFINITION. What the spec leaves open as a choice: the order in which the part takes happenings that have come due or
arrived together. -/

namespace Sys2Proof

/-- FREE VALUE. Which of several happenings that may come next the part takes when nothing is commanded: the `n`-th free
choice. The spec lets either of two come first (R14, R31, R99, R118) and gives no bound on how long a command executes
(R166). No body: nothing can be proved about the choice, so every statement holds for every order. See log 9. Safe. -/
opaque Config.choice : Nat → Nat

end Sys2Proof
end

