-- ==== Sys2Proof/Machine/Idle.lean ====
section
/-! DEFINITION. What the part does when no command waits (log 8): a happening that has come due, or the work of a link
whose request is executing, is put on the queue; with nothing due, 1 µs passes. -/

namespace Sys2Proof.Machine

open Sys2Proof

/-- A time that is held has been reached. -/
def dueAt (t : Option Time) (now : Time) : Bool :=
  match t with
  | none => false
  | some t => reached t now

/-- A lease slot's deadline, absent while it is FREE (Table 7-2). -/
def LeaseSlot.deadline (sl : LeaseSlot) : Option Time := sl.lease.map (·.deadline)

/-- The lease expiries of a port that have come due (R118). -/
def State.dueExpiries (s : State) (p : Port) : List Instr :=
  ((List.finRange 4).filter fun n => dueAt (((s.rx.get p).slots.at n).deadline) s.timer.timeBase).map (.leaseExpiry p)

/-- The time-driven happenings that have come due (R78, R81, R85, R118). -/
def State.dueNow (s : State) : List Instr :=
  if s.refclk then
    (if dueAt s.timer.nextSlot s.timer.timeBase then [Instr.slotStart] else []) ++
      (if dueAt s.timer.syncEnd s.timer.timeBase then [Instr.syncOutPulseEnd] else []) ++
      Port.all.flatMap s.dueExpiries
  else []

/-- The next happening of a link's execution (R170): its command at the owning block, then the end of the execution. -/
def State.linkWork (s : State) (p : Port) : List Instr :=
  match (s.link.get p).executing with
  | none => []
  | some r =>
    match (s.link.get p).answer with
    | some _ => [.executionEnd p]
    | none => (commandOf p r.code r.payload).toList

/-- What an idle step may do. -/
inductive IdleMove where
  /-- a happening comes next -/
  | happen (i : Instr)
  /-- 1 µs passes -/
  | tick
  deriving DecidableEq, Repr

/-- What an idle step may do in a state: a happening that has come due, a link's work, or, with nothing due and REFCLK
running, the passing of 1 µs (R78, R170). -/
def State.idleMoves (s : State) : List IdleMove :=
  if s.resetLow then []
  else
    s.dueNow.map .happen ++ (Port.all.flatMap s.linkWork).map .happen ++
      (if s.refclk && s.dueNow.isEmpty then [.tick] else [])

/-- The state after an idle move. -/
def State.idleMove (s : State) : IdleMove → State
  | .happen i => { s with pending := [i] }
  | .tick => { s with timer := { s.timer with timeBase := s.timer.timeBase + 1 } }

/-- The idle step (log 8, log 9): the only move there is, or one of several by the free choice `Config.choice`; nothing
where there is none. -/
def State.idle (s : State) : State :=
  match s.idleMoves with
  | [] => s
  | [m] => s.idleMove m
  | m :: ms => ({ s with choices := s.choices + 1 } : State).idleMove
      ((m :: ms).getD (Config.choice s.choices % (m :: ms).length) m)

end Sys2Proof.Machine
end

