-- ==== Sys2Proof/Safety.lean ====
section
/-! DEFINITION. The terms in which claims about the part are stated: what a command leaves alone, what a command answers,
the fields of a payload, and the laws that every step keeps (a state that meets them all is lawful). -/

namespace Sys2Proof

/-! ## Whom a command concerns -/

/-- The port on whose link a command was taken or a link happening falls; none for the others. -/
def Instr.port? (i : Instr) : Option Port :=
  match i with
  | .csNFall p => some p
  | .csNRise p _ => some p
  | .lengthAbove272 p _ _ _ => some p
  | .requestReceived p _ _ _ _ => some p
  | .executionEnd p => some p
  | .responseSent p => some p
  | i => i.command?.map (·.1)

/-- The time-driven happenings of the Cycle Timer and the Receive Unit. -/
def Instr.timed (i : Instr) : Bool :=
  match i with
  | .slotStart => true
  | .leaseExpiry _ _ => true
  | .syncOutPulseEnd => true
  | _ => false

/-- A command or happening of RESET_N. -/
def Instr.isReset (i : Instr) : Bool :=
  match i with
  | .resetNAssert => true
  | .resetNRelease _ => true
  | _ => false

end Sys2Proof

namespace Sys2Proof.Machine

open Sys2Proof

/-! ## What a command leaves alone -/

/-- The parts of the state, one per field. -/
inductive Part where
  | resetLow | refclk | mbc | mst | lanes | cal | plan | timer | rx | rpt | att | link | pending | choices
  deriving DecidableEq, Repr

/-- A part is the same in two states. -/
def Part.same (s t : State) : Part → Prop
  | .resetLow => t.resetLow = s.resetLow
  | .refclk => t.refclk = s.refclk
  | .mbc => t.mbc = s.mbc
  | .mst => t.mst = s.mst
  | .lanes => t.lanes = s.lanes
  | .cal => t.cal = s.cal
  | .plan => t.plan = s.plan
  | .timer => t.timer = s.timer
  | .rx => t.rx = s.rx
  | .rpt => t.rpt = s.rpt
  | .att => t.att = s.att
  | .link => t.link = s.link
  | .pending => t.pending = s.pending
  | .choices => t.choices = s.choices

/-- Every part but those named is the same in both states. -/
def ChangesOnly (s t : State) (parts : List Part) : Prop := ∀ x : Part, x ∉ parts → x.same s t

/-- Every port's value but that of `p` is the same in both tables. -/
def OnlyAt {α : Type} (p : Port) (t u : PerPort α) : Prop := ∀ q, q ≠ p → u.get q = t.get q

/-- Every entry but that at `i` is the same in both tables. -/
def OnlyAtIndex {n : Nat} {α : Type} (i : Fin n) (t u : Tbl n α) : Prop := ∀ j, j ≠ i → u.at j = t.at j

/-! ## What a command answers -/

/-- From `s` to `t`, the links change in this alone: the answer `a` stands at p's link, with the RUN flag that holds
in `t`, after the command has acted (R155, R172, log 12). -/
def Answers (s t : State) (p : Port) (a : Answer) : Prop :=
  t.link.get p = { s.link.get p with answer := some ⟨a, t.inRun⟩ } ∧ OnlyAt p s.link t.link

/-- A command is answered with a status and a payload, and changes nothing else. -/
def JustAnswers (i : Instr) (s : State) (p : Port) (st : Status) (payload : List Byte) : Prop :=
  ∃ t, exec i s = .next t ∧ Answers s t p (.reply st payload) ∧ ChangesOnly s t [.link]

/-- A 16-bit counter raised by a number, saturating at 65535 (00_scope.md, "Counters"). -/
def counted (c : Half) (n : Nat) : Half := BitVec.ofNat 16 (min 65535 (c.toNat + n))

/-- The byte of a payload at an offset. -/
def byteAt (payload : List Byte) (i : Nat) : Nat := (payload.getD i 0).toNat

/-- The 16-bit field of a payload at an offset, least significant byte first (R168). -/
def halfAt (payload : List Byte) (i : Nat) : Nat := byteAt payload i + 256 * byteAt payload (i + 1)

/-- Checks made in order: the first that fails gives its status; none when all pass. -/
def firstFailing : List (Bool × Status) → Option Status
  | [] => none
  | (pass, st) :: rest => if pass then firstFailing rest else some st

/-- The lane record of a number on the link; one never opened where there is no such lane. -/
def State.laneNo (s : State) (n : Nat) : Lane := if h : n < 32 then s.lane ⟨n, h⟩ else Lane.reset

/-- The shadow entry of an index on the link. -/
def State.shadowNo (s : State) (n : Nat) : Entry := if h : n < 256 then s.shadowEntry ⟨n, h⟩ else Entry.unowned

/-! ## What shared effects leave -/

/-- Between `s` and `t` a kind was raised once to each port of a list, and nothing else befell any attention state. -/
def RaisedTo (s t : State) (k : EventKind) (ps : List Port) : Prop :=
  ∀ q, t.att.get q = if q ∈ ps then (s.att.get q).raise k else s.att.get q

/-- R15, R127 to R131: from `s` to `t`, the message of descriptor `d`, which stood as `m` at its end, ended with outcome
`o`: its record is posted, lost or discarded, and the store has it back. -/
def MessageEnded (s t : State) (d : DescId) (m : Desc) (o : MsgOutcome) : Prop :=
  let record : Report :=
    { desc := d, lane := m.lane, label := m.label, outcome := o, finalStates := m.delivery, submitCycle := m.submitCycle,
      stamp := m.stamp, attempts := Port.sum m.attempts.get }
  let before := s.rpt.get m.source
  let posted := (m.reportMode = .all ∨ (m.reportMode = .failures ∧ o ≠ .complete)) ∧ s.online m.source = true
  t.desc d = none ∧ OnlyAtIndex d s.mst.desc t.mst.desc ∧ t.mst.free = s.mst.free ++ m.fragments ∧
  t.mst.held.get m.source = s.mst.held.get m.source - m.fragments.length ∧ OnlyAt m.source s.mst.held t.mst.held ∧
  t.mst.refusals = s.mst.refusals ∧ t.mst.pool = s.mst.pool ∧ OnlyAt m.source s.rpt t.rpt ∧
  (¬ posted → t.rpt = s.rpt ∧ t.att = s.att) ∧
  (posted → before.queue.length < 16 →
    t.rpt.get m.source = { before with queue := before.queue ++ [record] } ∧
      RaisedTo s t .reportReady (if before.queue = [] then [m.source] else [])) ∧
  (posted → 16 ≤ before.queue.length →
    t.rpt.get m.source = { before with lost := counted before.lost 1 } ∧ RaisedTo s t .reportLost [m.source])

/-- R70: from `s` to `t`, the proposal `r` was decided with outcome `o`. -/
def Decided (s t : State) (r : Proposal) (o : PlanOutcome) : Prop :=
  t.plan = { s.plan with proposal := none, last := some ⟨r.number, o⟩ } ∧
    RaisedTo s t .planDecided (Port.all.filter fun q => (q == r.proposer || r.voters.get q) && s.online q)

/-- Table 11-18: a payload carries the message `m` of descriptor `d`, leased to `p` in slot `n`, as it stands in `t`. -/
def IsContent (payload : List Byte) (t : State) (p : Port) (n : SlotId) (d : DescId) (m : Desc) : Prop :=
  byteAt payload 0 = 16 * n.val + ((t.rx.get p).slots.at n).generation.toNat ∧ byteAt payload 1 = d.val ∧
  byteAt payload 2 = m.source.toNat ∧ byteAt payload 3 = m.lane.val ∧ halfAt payload 4 = m.label.toNat ∧
  (∀ st, m.stamp = some st → halfAt payload 6 = st.cycle.toNat ∧ byteAt payload 8 = st.slot.toNat) ∧
  byteAt payload 9 = m.attempts.get p % 256 ∧ byteAt payload 10 = (t.rx.get p).queue.length % 256 ∧
  halfAt payload 11 = m.length % 65536 ∧ payload.drop 13 = Memory.load m.fragments m.length t.mst.pool

/-- R115, R116 step 1 and 2: from `s` to `t`, slot `n` of `p` is FREE, its last end its generation with `cause`, and p's
other slots are as they were. -/
def LeaseEnded (s t : State) (p : Port) (n : SlotId) (cause : EndCause) : Prop :=
  let sl := (s.rx.get p).slots.at n
  ((t.rx.get p).slots.at n) = { sl with lease := none, lastEnd := some ⟨sl.generation, cause⟩ } ∧
    OnlyAtIndex n (s.rx.get p).slots (t.rx.get p).slots ∧ OnlyAt p s.rx t.rx

/-- R6, R119: from `s` to `t`, p's delivery of `d`, which stood as `m`, took the final state `v`: the outstanding count
falls by one, and the message ends if none was left. -/
def Settled (s t : State) (p : Port) (d : DescId) (m : Desc) (v : Delivery) : Prop :=
  let m' := { m with delivery := m.delivery.set p v, outstanding := m.outstanding - 1 }
  (m.outstanding ≤ 1 → MessageEnded s t d m' (outcomeOf m' .released)) ∧
  (1 < m.outstanding →
    t.mst = { s.mst with desc := s.mst.desc.put d (some m') } ∧ t.rpt = s.rpt ∧ t.att = s.att)

/-! ## Slot starts and release passes -/

/-- R71, R81, R82, R84, R85: from `s` to `u`, the slot start due at `due` begins: the Cycle Timer and, at a cycle boundary,
the Plan Coordinator and the Calendar Store have done their parts, and the release pass is still to come. That the time base
is brought to `due` is log 7. -/
def SlotBegins (s u : State) (due : Time) : Prop :=
  u.timer.state = s.timer.state ∧ u.timer.timeBase = (if reached due s.timer.timeBase then s.timer.timeBase else due) ∧
  u.timer.nextSlot = some (due + BitVec.ofNat 32 u.timer.header.length) ∧
  (s.timer.slot.toNat + 1 < s.timer.header.slots → ChangesOnly s u [.timer] ∧ u.timer.cycle = s.timer.cycle ∧
    u.timer.slot = s.timer.slot + 1 ∧ u.timer.header = s.timer.header ∧ u.timer.syncOut = s.timer.syncOut ∧
    u.timer.syncEnd = s.timer.syncEnd) ∧
  (s.timer.header.slots ≤ s.timer.slot.toNat + 1 → ChangesOnly s u [.timer, .plan, .cal, .att] ∧
    u.timer.cycle = s.timer.cycle + 1 ∧ u.timer.slot = 0 ∧ u.timer.header = u.cal.activeBank.header ∧
    u.timer.syncOut = true ∧ u.timer.syncEnd = some (due + 8) ∧
    match s.plan.proposal with
    | none => u.plan = s.plan ∧ u.cal = s.cal ∧ u.att = s.att
    | some r =>
      if r.state = .accepted then Decided s u r .applied ∧ u.cal.active = s.cal.active.other ∧
        u.cal.activeBank = s.cal.shadow ∧ u.cal.shadow = s.cal.shadow
      else if r.remaining ≤ 1 then Decided s u r .lapsedDeadline ∧ u.cal = s.cal
      else u.plan = { s.plan with proposal := some { r with remaining := r.remaining - 1 } } ∧ u.cal = s.cal ∧ u.att = s.att)

/-- R92: a destination is ONLINE with room. -/
def State.hasRoom (s : State) (q : Port) : Bool := s.online q && decide ((s.rx.get q).occupancy < (s.params q).depth)

/-- R92: a destination is ONLINE without room. -/
def State.isFull (s : State) (q : Port) : Bool := s.online q && !decide ((s.rx.get q).occupancy < (s.params q).depth)

/-- From `s` to `u`, lane `l` becomes `ln` and no other lane changes. -/
def LaneBecomes (s u : State) (l : LaneId) (ln : Lane) : Prop := u.lane l = ln ∧ OnlyAtIndex l s.lanes u.lanes

/-- R91: a message is stale in a cycle. -/
def StaleIn (cycle : Half) (st : LaneSettings) (m : Desc) : Prop :=
  1 ≤ st.maxAge ∧ st.maxAge < (cycle - m.submitCycle).toNat

/-- R91: from `s` to `u`, the head `d` of lane `l`, a message `m` before `rest`, is discarded as stale. -/
def HeadDiscarded (s u : State) (l : LaneId) (d : DescId) (rest : List DescId) (m : Desc) : Prop :=
  ChangesOnly s u [.lanes, .mst, .rpt, .att] ∧ MessageEnded s u d m .stale ∧
  LaneBecomes s u l { s.lane l with
    queue := rest, counters := { (s.lane l).counters with stale := counted (s.lane l).counters.stale 1 } }

/-- R92, R93, R95, R96, R107 to R109: from `s` to `u`, the head `d` of lane `l`, a message `m` before `rest`, is released
with a stamp: ABANDONED where a destination is gone, QUEUED where there is room, MISSED where there is none; with nothing
QUEUED it ends at once as FAILED. -/
def HeadReleased (s u : State) (l : LaneId) (d : DescId) (rest : List DescId) (m : Desc) (stamp : Stamp) : Prop :=
  let queued := Port.all.filter fun q => m.dest.get q && s.hasRoom q
  let full := Port.all.filter fun q => m.dest.get q && s.isFull q
  let m' : Desc := { m with
    state := .released, stamp := some stamp, outstanding := queued.length
    delivery := PerPort.ofFn fun q => if m.dest.get q then
      (if s.hasRoom q then .queued else if s.isFull q then .missed else .abandoned) else m.delivery.get q }
  ChangesOnly s u [.lanes, .mst, .rx, .rpt, .att] ∧
  LaneBecomes s u l { s.lane l with
    queue := rest
    counters := { (s.lane l).counters with
      released := counted (s.lane l).counters.released 1
      missed := counted (s.lane l).counters.missed full.length } } ∧
  (∀ q, u.rx.get q = { s.rx.get q with
    queue := if q ∈ queued then (s.rx.get q).queue ++ [d] else (s.rx.get q).queue
    rxMissed := if q ∈ full then counted (s.rx.get q).rxMissed 1 else (s.rx.get q).rxMissed }) ∧
  (queued ≠ [] → u.mst = { s.mst with desc := s.mst.desc.put d (some m') } ∧ u.rpt = s.rpt ∧
    RaisedTo s u .rxReady (queued.filter fun q => (s.rx.get q).queue.length + 1 == (s.params q).watermark)) ∧
  (queued = [] → MessageEnded s u d m' .failed)

/-- R90, R94, R97, Table 6-1: the release passes over lane `l` with its settings, at a stamp: for the messages the burst
still allows and whether one has been released, from the state before to the state after. -/
inductive Pass (l : LaneId) (st : LaneSettings) (stamp : Stamp) : Nat → Bool → State → State → Prop where
  /-- burst reached: the messages still in the queue are not examined -/
  | burst (any : Bool) (s : State) : Pass l st stamp 0 any s s
  /-- emptied after a release -/
  | emptied (b : Nat) (s : State) : (s.lane l).queue = [] → Pass l st stamp (b + 1) true s s
  /-- empty, nothing released: an idle slot -/
  | idle (b : Nat) (s u : State) : (s.lane l).queue = [] → ChangesOnly s u [.lanes] →
      LaneBecomes s u l { s.lane l with
        counters := { (s.lane l).counters with idleSlots := counted (s.lane l).counters.idleSlots 1 } } →
      Pass l st stamp (b + 1) false s u
  /-- a stale head is discarded and does not count toward the burst -/
  | discard (b : Nat) (any : Bool) (s u t : State) (d : DescId) (rest : List DescId) (m : Desc) :
      (s.lane l).queue = d :: rest → s.desc d = some m → StaleIn stamp.cycle st m → HeadDiscarded s u l d rest m →
      Pass l st stamp (b + 1) any u t → Pass l st stamp (b + 1) any s t
  /-- under HOLD, with an ONLINE destination full, the head is held and the pass ends -/
  | hold (b : Nat) (any : Bool) (s u : State) (d : DescId) (rest : List DescId) (m : Desc) :
      (s.lane l).queue = d :: rest → s.desc d = some m → ¬ StaleIn stamp.cycle st m → st.policy = .hold →
      (∃ q, m.dest.get q = true ∧ s.isFull q = true) → ChangesOnly s u [.lanes] →
      LaneBecomes s u l { s.lane l with
        counters := { (s.lane l).counters with heldSlots := counted (s.lane l).counters.heldSlots 1 } } →
      Pass l st stamp (b + 1) any s u
  /-- else the head is released and counts toward the burst -/
  | release (b : Nat) (any : Bool) (s u t : State) (d : DescId) (rest : List DescId) (m : Desc) :
      (s.lane l).queue = d :: rest → s.desc d = some m → ¬ StaleIn stamp.cycle st m →
      (st.policy = .hold → ∀ q, m.dest.get q = true → s.isFull q = false) → HeadReleased s u l d rest m stamp →
      Pass l st stamp b true u t → Pass l st stamp (b + 1) any s t

/-- R34, R90: from `u` to `t`, the end of a pass: a DRAINING lane whose queue is empty becomes CLOSED and its owner is told. -/
def PassEnds (u t : State) (l : LaneId) (owner : Port) : Prop :=
  if (u.lane l).state = .draining ∧ (u.lane l).queue = [] then
    ChangesOnly u t [.lanes, .att] ∧ LaneBecomes u t l { u.lane l with state := .closed } ∧ RaisedTo u t .laneClosed [owner]
  else t = u

/-! ## Leaves -/

/-- R35, R38: from the first state to the second, the messages of a list ended as PURGED, one after the other. -/
inductive MessagesPurged : List DescId → State → State → Prop where
  | done (s t : State) : ChangesOnly s t [.lanes] → MessagesPurged [] s t
  | next (d : DescId) (ds : List DescId) (m : Desc) (s u t : State) : s.desc d = some m → MessageEnded s u d m .purged →
      ChangesOnly s u [.lanes, .mst, .rpt, .att] → MessagesPurged ds u t → MessagesPurged (d :: ds) s t

/-- R122: from the first state to the second, the deliveries of a list to port `p` became ABANDONED, one after the other. -/
inductive DeliveriesAbandoned (p : Port) : List DescId → State → State → Prop where
  | done (s t : State) : ChangesOnly s t [.rx] → DeliveriesAbandoned p [] s t
  | next (d : DescId) (ds : List DescId) (m : Desc) (s u t : State) : s.desc d = some m → Settled s u p d m .abandoned →
      ChangesOnly s u [.rx, .mst, .rpt, .att] → DeliveriesAbandoned p ds u t → DeliveriesAbandoned p (d :: ds) s t

/-- R38: the messages of p's OPEN and DRAINING lanes, in ascending lane number, head first. -/
def State.laneMessages (s : State) (p : Port) : List DescId :=
  ((List.finRange 32).filter fun l => (s.lane l).state != .closed && (s.lane l).owner == some p).flatMap
    fun l => (s.lane l).queue

/-- R122: what p leases, in ascending slot number, and then its receive queue from head to tail. -/
def State.references (s : State) (p : Port) : List DescId :=
  (List.finRange 4).filterMap (fun n => ((s.rx.get p).slots.at n).lease.map (·.desc)) ++ (s.rx.get p).queue

/-- R70, R73: the leave of `p` decides the proposal that stands, and how. -/
def State.decidedByLeave (s : State) (p : Port) : Option (Proposal × PlanOutcome) :=
  match s.plan.proposal with
  | none => none
  | some r =>
    if r.proposer = p then some (r, .withdrawnProposerLeft)
    else if (List.finRange 256).any fun i => (s.shadowEntry i).owner == some p then some (r, .lapsedMemberLeft)
    else none

/-- R73, R74: what the leave of `p` makes of the Plan Coordinator. -/
def State.planAfterLeave (s : State) (p : Port) : Plan :=
  match s.decidedByLeave p, s.plan.proposal with
  | some (r, o), _ => { s.plan with proposal := none, last := some ⟨r.number, o⟩ }
  | none, some r =>
    if r.voters.get p then
      { s.plan with proposal := some { r with
        voters := r.voters.set p false
        yes := r.yes.set p false
        state := if Port.all.all fun q => q == p || !r.voters.get q || r.yes.get q then .accepted else r.state } }
    else s.plan
  | none, none => s.plan

/-- R160, Table 10-6: from `s` to `t`, the port `p`, which was ONLINE, leaves: what each block holds after it, but for the
messages that end. -/
def Leaves (s t : State) (p : Port) : Prop :=
  t.resetLow = s.resetLow ∧ t.refclk = s.refclk ∧ t.mst.refusals = s.mst.refusals ∧ t.mst.pool = s.mst.pool ∧
  t.mbc.ports = s.mbc.ports.set p .offline ∧ t.mbc.params = s.mbc.params ∧ t.mbc.deadline = s.mbc.deadline ∧
  t.att.get p = s.att.get p ∧
  (∀ q, q ≠ p → s.online q = true → EventSet.has (t.att.get q).latched .memberChange = true) ∧
  t.plan = s.planAfterLeave p ∧
  (∀ l, (s.lane l).state ≠ .closed → (s.lane l).owner = some p → t.lane l = { s.lane l with state := .closed, queue := [] }) ∧
  (∀ l, ((s.lane l).state = .closed ∨ (s.lane l).owner ≠ some p) → t.lane l = s.lane l) ∧
  (t.rx.get p).queue = [] ∧ (∀ n, (t.rx.get p).slots.at n = ⟨none, ((s.rx.get p).slots.at n).generation, none⟩) ∧
  (t.rx.get p).rxMissed = (s.rx.get p).rxMissed ∧ (t.rx.get p).leaseExpiries = (s.rx.get p).leaseExpiries ∧
  (t.rx.get p).deliveriesExpired = (s.rx.get p).deliveriesExpired ∧
  t.rpt.get p = { s.rpt.get p with queue := [] } ∧ OnlyAt p s.rx t.rx ∧
  ((∃ q, q ≠ p ∧ s.online q = true) →
    t.inRun = s.inRun ∧ t.timer = s.timer ∧ t.cal.active = s.cal.active ∧ t.cal.activeBank = s.cal.activeBank ∧
    t.cal.shadow.header = s.cal.shadow.header ∧
    ∀ i, t.shadowEntry i = if (s.shadowEntry i).owner = some p then ⟨none, none⟩ else s.shadowEntry i) ∧
  ((∀ q, q ≠ p → s.online q = false) →
    t.inRun = false ∧
    t.timer = { s.timer with state := .stopped, nextSlot := none, syncOut := false, syncEnd := none } ∧
    t.cal.active = s.cal.active ∧ ∀ bk, (t.cal.bank bk).header = (s.cal.bank bk).header ∧
      ∀ i, (t.cal.bank bk).entries.at i = ⟨none, none⟩)

/-- R38, R73, R122, R160: from `s` to `t`, what becomes of the messages and who is told when `p` leaves: after parts 1 to 3
(`s1`) the messages of p's lanes end as PURGED (`s2`), then p's deliveries become ABANDONED (`s3`), each of those ends
reported to a source that is still ONLINE. -/
def LeavesMessages (s t : State) (p : Port) : Prop :=
  ∃ s1 s2 s3,
    ChangesOnly s s1 [.mbc, .plan, .cal, .att] ∧ s1.mbc = { s.mbc with ports := s.mbc.ports.set p .offline } ∧
    (∀ q, s1.att.get q = if q ≠ p ∧ s.online q = true then
        let a := (s.att.get q).raise .memberChange
        match s.decidedByLeave p with
        | some (r, _) => if q = r.proposer ∨ r.voters.get q = true then a.raise .planDecided else a
        | none => a
      else s.att.get q) ∧
    MessagesPurged (s.laneMessages p) s1 s2 ∧ DeliveriesAbandoned p (s.references p) s2 s3 ∧
    t.mst = s3.mst ∧ t.att = s3.att ∧ OnlyAt p s3.rpt t.rpt

/-! ## The laws that every step keeps -/

/-- R151, R153: every setup parameter is in its range, a DISABLED port has the defaults, and the reserves fit the pool. -/
def State.ParamsLawful (s : State) : Prop :=
  (∀ p, (s.params p).reserve ≤ (s.params p).ceiling ∧
    1 ≤ (s.params p).ceiling ∧ (s.params p).ceiling ≤ 512 ∧
    4 ≤ (s.params p).depth ∧ (s.params p).depth ≤ 32 ∧
    1 ≤ (s.params p).watermark ∧ (s.params p).watermark ≤ (s.params p).depth ∧
    1 ≤ (s.params p).leaseTime ∧ (s.params p).leaseTime ≤ 1000 ∧ (s.params p).redelivery ≤ 7 ∧
    (s.portState p = .disabled → s.params p = Params.default)) ∧
  s.reserveSum ≤ 512 ∧ 1 ≤ s.mbc.deadline ∧ s.mbc.deadline ≤ 15

/-- R149, Table 10-2: in SETUP no port is ONLINE; in RUN some port is ONLINE and none is READY. -/
def State.MembershipLawful (s : State) : Prop :=
  (s.inRun = false → ∀ p, s.online p = false) ∧
  (s.inRun = true → (∃ p, s.online p = true) ∧ ∀ p, s.portState p ≠ .ready)

/-- R137, R138, R140: ATTN_N is low exactly while an enabled kind is latched, and high while RESET_N is low; a renewed
kind is latched; no snapshot has number 0. -/
def State.AttentionLawful (s : State) : Prop :=
  ∀ p, (s.att.get p).attnLow = (!s.resetLow && (s.att.get p).attention) ∧
    (s.att.get p).renewed &&& ~~~ (s.att.get p).latched = 0 ∧
    (s.att.get p).nextSnapshot ≠ 0 ∧ ∀ sn, (s.att.get p).snapshot = some sn → sn.number ≠ 0

/-- The fragments of a descriptor; a FREE one has none. -/
def fragmentsOf (m : Option Desc) : List BufId :=
  match m with
  | none => []
  | some m => m.fragments

/-- The buffers a descriptor holds for source `p`. -/
def heldFor (p : Port) (m : Option Desc) : Nat :=
  match m with
  | none => 0
  | some m => if m.source = p then m.fragments.length else 0

/-- R7, R8, R9: each buffer is on the free list once or in exactly one fragment list; each held count counts its port's
buffers; a message has as many fragments as its length needs; the pool keeps its canonical form inside its 32768 bytes. -/
def State.StoreLawful (s : State) : Prop :=
  List.Perm (s.mst.free ++ (List.finRange 256).flatMap fun d => fragmentsOf (s.desc d)) (List.finRange 512) ∧
  (∀ p, s.mst.held.get p = ((List.finRange 256).map fun d => heldFor p (s.desc d)).sum) ∧
  (∀ d m, s.desc d = some m → 1 ≤ m.length ∧ m.length ≤ 256 ∧ m.fragments.length = buffersFor m.length) ∧
  Memory.wf s.mst.pool = true ∧ ∀ c ∈ s.mst.pool, c.1 < 32768

/-- R10: no port holds more buffers than its ceiling, and the free list covers what the reserves still guarantee. -/
def State.QuotaLawful (s : State) : Prop :=
  (∀ p, s.mst.held.get p ≤ (s.params p).ceiling) ∧
  (Port.sum fun q => (s.params q).reserve - s.mst.held.get q) ≤ s.mst.free.length

/-- R19: in SETUP every descriptor is FREE. -/
def State.SetupIsEmpty (s : State) : Prop := s.inRun = false → ∀ d, s.desc d = none

/-- A header within the ranges of Table 3-1. -/
def Header.inRange (h : Header) : Prop := 4 ≤ h.slots ∧ h.slots ≤ 256 ∧ 50 ≤ h.length ∧ h.length ≤ 65535

/-- R28, R41, R58: an unowned entry is EMPTY; a burst is 1 to 4; an entry that names a lane that is not CLOSED is owned by
that lane's owner; in SETUP every entry is EMPTY and unowned. -/
def State.EntriesLawful (s : State) : Prop :=
  (∀ bk i, ((s.cal.bank bk).entries.at i).owner = none → ((s.cal.bank bk).entries.at i).release = none) ∧
  (∀ bk i r, ((s.cal.bank bk).entries.at i).release = some r → 1 ≤ r.burst ∧ r.burst ≤ 4 ∧
    ((s.lane r.lane).state ≠ .closed → ((s.cal.bank bk).entries.at i).owner = (s.lane r.lane).owner)) ∧
  (s.inRun = false → ∀ bk i, (s.cal.bank bk).entries.at i = Entry.unowned)

/-- R55: the shadow entry at an index is bad: it is RELEASE, and its index is at or above the shadow header's slots per
cycle, or the lane it names is not OPEN or has another owner than the entry. -/
def State.BadAt (s : State) (i : EntryId) : Prop :=
  ∃ r, (s.shadowEntry i).release = some r ∧
    (s.cal.shadow.header.slots ≤ i.val ∨ (s.lane r.lane).state ≠ .opened ∨
      (s.lane r.lane).owner ≠ (s.shadowEntry i).owner)

/-- R59, R63, R66, R71, R72, R74, R76: a standing proposal is in RUN, its proposer and its voters are ONLINE, the proposer
is no voter, only voters have voted, it is ACCEPTED exactly when every voter has voted YES, its number is 1 to 255, its
remaining count 1 to 15, and the shadow bank it froze is valid. -/
def State.PlanLawful (s : State) : Prop :=
  s.plan.nextNumber ≠ 0 ∧ 1 ≤ s.mbc.deadline ∧ s.mbc.deadline ≤ 15 ∧
  ∀ r, s.plan.proposal = some r →
    s.inRun = true ∧ s.online r.proposer = true ∧ r.voters.get r.proposer = false ∧
    (∀ q, r.voters.get q = true → s.online q = true) ∧ (∀ q, r.yes.get q = true → r.voters.get q = true) ∧
    (r.state = .accepted ↔ ∀ q, r.voters.get q = true → r.yes.get q = true) ∧
    r.number ≠ 0 ∧ 1 ≤ r.remaining ∧ r.remaining ≤ 15 ∧ ∀ i, ¬ s.BadAt i

/-- R79, R82, R85, R86: with RESET_N high the timer runs exactly in RUN, and with RESET_N low it is stopped; while RUNNING
it holds the next slot start and times the cycle with the active bank's header; while STOPPED it holds none and SYNC_OUT is
low; every header is in range. -/
def State.TimerLawful (s : State) : Prop :=
  (s.resetLow = true → s.timer.state = .stopped) ∧
  (s.resetLow = false → (s.timer.state = .running ↔ s.inRun = true)) ∧
  (s.timer.state = .running →
    s.timer.nextSlot.isSome = true ∧ s.timer.header = s.cal.activeBank.header ∧
      s.timer.slot.toNat < s.timer.header.slots) ∧
  (s.timer.state = .stopped → s.timer.nextSlot = none ∧ s.timer.syncOut = false) ∧
  s.timer.syncOut = s.timer.syncEnd.isSome ∧
  s.timer.header.inRange ∧ ∀ bk, (s.cal.bank bk).header.inRange

/-- R21, R22, R23, R38: a CLOSED lane has an empty queue, a DRAINING one does not; a lane that is not CLOSED has settings,
an ONLINE owner, a nonempty set of enabled destinations, and no more messages than its depth. -/
def State.LanesLawful (s : State) : Prop :=
  ∀ l, ((s.lane l).state = .closed → (s.lane l).queue = []) ∧
    ((s.lane l).state = .draining → (s.lane l).queue ≠ []) ∧
    ((s.lane l).state ≠ .closed → ∃ st, (s.lane l).settings = some st ∧ s.online st.owner = true ∧
      PortSet.toList st.dest ≠ [] ∧ (∀ q, st.dest.get q = true → s.portState q ≠ .disabled) ∧
      1 ≤ st.depth ∧ st.depth ≤ 32 ∧ (s.lane l).queue.length ≤ st.depth)

/-- R92, R104, R106, R126, R134: no port's occupancy passes its receive depth, no report queue passes its capacity, and a
port that is not ONLINE has an empty receive queue, no HELD lease slot and an empty report queue. -/
def State.ReceiveLawful (s : State) : Prop :=
  ∀ p, (s.rx.get p).queue.length + (List.finRange 4).countP (fun n => ((s.rx.get p).slots.at n).lease.isSome) ≤
      (s.params p).depth ∧ (s.rpt.get p).queue.length ≤ reportCapacity ∧
    (s.online p = false →
      (s.rx.get p).queue = [] ∧ (∀ n, ((s.rx.get p).slots.at n).lease = none) ∧ (s.rpt.get p).queue = [])

/-- How often a descriptor stands in a lane's pending queue. -/
def State.laneRefs (s : State) (l : LaneId) (d : DescId) : Nat := (s.lane l).queue.count d

/-- How often a descriptor stands in a port's receive queue. -/
def State.queueRefs (s : State) (p : Port) (d : DescId) : Nat := (s.rx.get p).queue.count d

/-- A lease slot holds a lease on a descriptor. -/
def LeaseSlot.holds (sl : LeaseSlot) (d : DescId) : Bool :=
  match sl.lease with
  | none => false
  | some l => l.desc == d

/-- How many of a port's lease slots hold a lease on a descriptor. -/
def State.slotRefs (s : State) (p : Port) (d : DescId) : Nat :=
  (List.finRange 4).countP fun n => ((s.rx.get p).slots.at n).holds d

/-- A delivery state that counts as outstanding (R6). -/
def Delivery.isOutstanding (v : Delivery) : Bool := v == .queued || v == .leased

/-- A PENDING descriptor (R3, R4, R5, R6, R23): in its lane's queue once and nowhere else, unstamped, every destination
WAITING, never leased. -/
def State.PendingLawful (s : State) (d : DescId) (m : Desc) : Prop :=
  (∀ l, s.laneRefs l d = if l = m.lane then 1 else 0) ∧ (∀ p, s.queueRefs p d = 0 ∧ s.slotRefs p d = 0) ∧
  m.stamp = none ∧ m.outstanding = 0 ∧
  ∀ p, m.delivery.get p = (if m.dest.get p then .waiting else .notDest) ∧ m.attempts.get p = 0

/-- A RELEASED descriptor (R3, R4, R6, R104): in no lane's queue, stamped, in a receive queue once for each QUEUED
delivery, in a lease slot once for each LEASED one, and its outstanding count, at least 1, counts both. -/
def State.ReleasedLawful (s : State) (d : DescId) (m : Desc) : Prop :=
  (∀ l, s.laneRefs l d = 0) ∧
  (∀ p, s.queueRefs p d = (if m.delivery.get p = .queued then 1 else 0) ∧
    s.slotRefs p d = (if m.delivery.get p = .leased then 1 else 0)) ∧
  m.stamp.isSome = true ∧ 1 ≤ m.outstanding ∧
  m.outstanding = Port.all.countP (fun p => (m.delivery.get p).isOutstanding) ∧
  ∀ p, m.delivery.get p ≠ .waiting ∧ (m.delivery.get p = .notDest ↔ m.dest.get p = false)

/-- R3 to R6, R23, R104: every reference to a descriptor is accounted for by its state and its delivery table, and none is
left to a FREE one. -/
def State.ReferencesLawful (s : State) : Prop :=
  ∀ d,
    (s.desc d = none → (∀ l, s.laneRefs l d = 0) ∧ ∀ p, s.queueRefs p d = 0 ∧ s.slotRefs p d = 0) ∧
    ∀ m, s.desc d = some m →
      (m.state = .pending → s.PendingLawful d m) ∧ (m.state = .released → s.ReleasedLawful d m)

/-- R5, R116: no delivery is leased more than redelivery limit + 1 times; one that waits in a receive queue has an attempt
left, and one under lease has been leased. -/
def State.AttemptsLawful (s : State) : Prop :=
  ∀ d m p, s.desc d = some m → m.attempts.get p ≤ (s.params p).redelivery + 1 ∧
    (m.delivery.get p = .queued → m.attempts.get p ≤ (s.params p).redelivery) ∧
    (m.delivery.get p = .leased → 1 ≤ m.attempts.get p)

/-- R165, R166, R170, R173 at one link: a DISABLED port's link stays as reset leaves it; with CS_N high the window is
IDLE; a response is being sent exactly while SENDING; a request waits only behind an executing one; the record holds a
response formed for its request, REPLAY clear, and never a REPEAT or a PORT_RESET that was carried out. -/
def State.LinkLawful (s : State) (p : Port) : Prop :=
  let l := s.link.get p
  (s.portState p = .disabled → l = Link.reset l.csLow) ∧
  (s.resetLow = false → l.csLow = false → l.window = .idle) ∧
  (l.window = .sending ↔ l.sending.isSome = true) ∧
  (l.waiting.isSome = true → l.executing.isSome = true) ∧
  (∀ k, l.record = some k → k.response.replay = false ∧ k.response.tag = k.tag ∧
    k.code ≠ 0x02 ∧ (k.code = 0x03 → k.response.status ≠ .ok)) ∧
  ∀ r f resp, l.executing = some r → l.answer = some f → f.answer = .stored resp → r.code = 0x02

/-- Every law of a lawful state. -/
structure State.Lawful (s : State) : Prop where
  params : s.ParamsLawful
  membership : s.MembershipLawful
  attention : s.AttentionLawful
  store : s.StoreLawful
  quota : s.QuotaLawful
  entries : s.EntriesLawful
  plan : s.PlanLawful
  timer : s.TimerLawful
  lanes : s.LanesLawful
  receive : s.ReceiveLawful
  references : s.ReferencesLawful
  attempts : s.AttemptsLawful
  links : ∀ p, s.LinkLawful p

end Sys2Proof.Machine
end

