-- ==== Sys2Proof/Certificates/Slice0/Obligations.lean ====
section
/-! DEFINITION. The statements for the provers, in the order of OBLIGATIONS.json. Hypotheses are on the state and the
operands alone; `s.takes i` says that command `i` reaches its block (log 4, log 5). -/

section Statements

open Sys2Proof Sys2Proof.Machine

/-! ## The queue and the whole part -/

/-- The step takes the command at the front of the queue and executes it with the queue's rest. -/
def Obligations.StepTakesFrontCommand : Prop :=
  ∀ (c : Instr) (rest : List Instr) (s : State), s.pending = c :: rest → step s = exec c (s.withPending rest)

/-- With an empty queue, nothing changes, or one happening that has come due or one link's work is queued, or, with
nothing due, 1 µs passes. A happening is due when REFCLK runs and its time is reached: the next slot start, the end of
the SYNC_OUT pulse, the deadline of a HELD lease slot. A link's work is its executing request's command, then the end of
the execution. The idle step is the model's choice (log 8, log 9). -/
def Obligations.EmptyQueueIdles : Prop :=
  ∀ s : State, s.pending = [] → ∃ t, step s = .next t ∧
    ((t = s ∧ (s.resetLow = true ∨ (s.refclk = false ∧ ∀ p, s.linkWork p = []))) ∨
      (s.resetLow = false ∧ ChangesOnly s t [.pending, .choices] ∧
        ∃ i, t.pending = [i] ∧ (i ∈ s.dueNow ∨ ∃ p, i ∈ s.linkWork p)) ∨
      (s.resetLow = false ∧ s.refclk = true ∧ s.dueNow = [] ∧ ChangesOnly s t [.timer, .choices] ∧
        t.timer = { s.timer with timeBase := s.timer.timeBase + 1 })) ∧
    (∀ i, i ∈ s.dueNow ↔ s.refclk = true ∧
      ((i = .slotStart ∧ ∃ due, s.timer.nextSlot = some due ∧ (s.timer.timeBase - due).toNat < 2147483648) ∨
        (i = .syncOutPulseEnd ∧ ∃ due, s.timer.syncEnd = some due ∧ (s.timer.timeBase - due).toNat < 2147483648) ∨
        ∃ p n l, i = .leaseExpiry p n ∧ ((s.rx.get p).slots.at n).lease = some l ∧
          (s.timer.timeBase - l.deadline).toNat < 2147483648)) ∧
    ∀ p i, i ∈ s.linkWork p ↔ ∃ q, (s.link.get p).executing = some q ∧
      ((i = .executionEnd p ∧ (s.link.get p).answer.isSome = true) ∨
        ((s.link.get p).answer = none ∧ commandOf p q.code q.payload = some i))

/-- Every command and happening has a next state in every state, and touches neither the queue nor the free choices. -/
def Obligations.EveryCommandCompletesAndKeepsQueue : Prop :=
  ∀ (i : Instr) (s : State), ∃ t, exec i s = .next t ∧ t.pending = s.pending ∧ t.choices = s.choices

/-! ## RESET_N and REFCLK -/

/-- What the release of RESET_N leaves in every block, for every sampling of the straps, from every state. That the
buffers, REFCLK and each CS_N stand as they stood is R17's word and the model's reading (log 2, log 14). -/
def Obligations.ResetReleaseSetsResetValues : Prop :=
  ∀ (straps : PortSet) (s : State), ∃ t, exec (.resetNRelease straps) s = .next t ∧
    t.resetLow = false ∧ t.inRun = false ∧ t.mbc.deadline = 4 ∧
    (∀ p, t.portState p = (if straps.get p then .offline else .disabled) ∧ t.params p = ⟨0, 128, 16, 1, 100, 2⟩) ∧
    (∀ d, t.desc d = none) ∧ t.mst.free = List.finRange 512 ∧ t.mst.pool = s.mst.pool ∧
    (∀ p, t.mst.held.get p = 0 ∧ t.mst.refusals.get p = ⟨0, 0, 0⟩) ∧
    (∀ l, t.lane l = ⟨.closed, none, [], ⟨0, 0, 0, 0, 0, 0⟩⟩) ∧
    t.cal.active = .a ∧ (∀ bk, (t.cal.bank bk).header = ⟨16, 1000⟩ ∧ ∀ i, (t.cal.bank bk).entries.at i = ⟨none, none⟩) ∧
    t.plan = ⟨none, none, 1⟩ ∧ t.timer = ⟨0, .stopped, 0, 0, ⟨16, 1000⟩, none, false, none⟩ ∧
    (∀ p, (t.rx.get p).queue = [] ∧ (∀ n, (t.rx.get p).slots.at n = ⟨none, 0, none⟩) ∧
      t.counters p = List.replicate 10 0 ∧ (t.rpt.get p).queue = [] ∧ t.att.get p = ⟨0, 0, 0x7FF, none, 1, false⟩ ∧
      t.link.get p = ⟨(s.link.get p).csLow, .idle, none, none, none, none, none, 0, 0, 0⟩) ∧
    t.refclk = s.refclk

/-- RESET_N going low stops the timer at time base 0 with SYNC_OUT low, and makes every ATTN_N high and every MISO
high-impedance; that the timer's other items and the other values stay as they are until the release is the model's
reading (log 3, log 20). While RESET_N is low it stays low, and the timer stands still, over every command, every
happening but those of RESET_N, and every idle step. REFCLK stopped, the time base keeps its value over every command,
every happening but those of RESET_N, and every idle step; when REFCLK resumes, counting goes on from that value. -/
def Obligations.ResetAssertAndRefclkStopHoldTime : Prop :=
  (∀ s : State, ∃ t, exec .resetNAssert s = .next t ∧ t.resetLow = true ∧
    t.timer = { s.timer with timeBase := 0, state := .stopped, nextSlot := none, syncOut := false, syncEnd := none } ∧
    (∀ p, t.att.get p = { s.att.get p with attnLow := false } ∧ t.miso p = .highZ) ∧
    ChangesOnly s t [.resetLow, .timer, .att]) ∧
  (∀ (i : Instr) (s t : State), s.resetLow = true → i.isReset = false → exec i s = .next t →
    t.resetLow = true ∧ t.timer = s.timer ∧ (∀ p, t.att.get p = s.att.get p ∧ t.miso p = .highZ)) ∧
  (∀ s t : State, s.resetLow = true → s.pending = [] → step s = .next t → t.resetLow = true ∧ t.timer = s.timer) ∧
  (∀ s : State, exec .refclkStop s = .next { s with refclk := false }) ∧
  (∀ s : State, exec .refclkResume s = .next { s with refclk := true }) ∧
  (∀ (i : Instr) (s t : State), s.refclk = false → i.isReset = false → exec i s = .next t →
    t.timer.timeBase = s.timer.timeBase) ∧
  ∀ s t : State, s.refclk = false → s.pending = [] → step s = .next t → t.timer = s.timer

/-- No block acts for a port that is DISABLED, nor for any port while RESET_N is low, and its MISO is high-impedance.
That nothing but the level of its CS_N changes, which follows the pin, is the model's reading (log 5). While RESET_N is
low no time-driven happening has any effect. -/
def Obligations.SilencedPortDoesNothing : Prop :=
  (∀ (p : Port) (s : State), s.live p = false ↔ (s.resetLow = true ∨ s.portState p = .disabled)) ∧
  (∀ (i : Instr) (p : Port) (s : State), i.port? = some p → s.live p = false →
    ∃ t, exec i s = .next t ∧ ChangesOnly s t [.link] ∧ OnlyAt p s.link t.link ∧
      { t.link.get p with csLow := (s.link.get p).csLow } = s.link.get p ∧ t.miso p = .highZ) ∧
  (∀ (p : Port) (s : State), s.live p = false → s.miso p = .highZ) ∧
  ∀ (i : Instr) (s : State), i.timed = true → s.resetLow = true → exec i s = .next s

/-! ## The link window -/

/-- CS_N falling opens a window, and the end of the response closes the sending. CS_N rising in a RECEIVING or
DISCARDING window after at least one complete byte is an abort, counted and told to the port; any other rise aborts
nothing; in every case the window becomes IDLE, and the record and the executing and waiting requests stand. A fall with
CS_N low, or the end of a response that is not being sent, changes nothing (the model's reading, log 6). MISO is
high-impedance while CS_N is high, carries the response while SENDING and 00h in the rest of a window; that it is
high-impedance with CS_N low and no window open is the model's reading (log 14). -/
def Obligations.ChipSelectOpensAndEndsWindow : Prop :=
  ∀ (s : State) (p : Port), s.live p = true →
    let l := s.link.get p
    (l.csLow = false → ∃ t, exec (.csNFall p) s = .next t ∧ ChangesOnly s t [.link] ∧ OnlyAt p s.link t.link ∧
      t.link.get p = { l with csLow := true, window := if l.waiting.isSome then .discarding else .receiving }) ∧
    (l.csLow = true → exec (.csNFall p) s = .next s) ∧
    (l.csLow = false ∨ l.window = .idle → s.miso p = .highZ) ∧
    (l.csLow = true → l.window ∈ [.receiving, .discarding, .awaiting, .done] → s.miso p = .zeros) ∧
    (∀ r, l.csLow = true → l.window = .sending → l.sending = some r → s.miso p = .frame r) ∧
    (l.window = .sending → ∃ t, exec (.responseSent p) s = .next t ∧ ChangesOnly s t [.link] ∧ OnlyAt p s.link t.link ∧
      t.link.get p = { l with window := .done, sending := none }) ∧
    (l.window ≠ .sending → exec (.responseSent p) s = .next s) ∧
    ∀ bytes, l.csLow = true →
      let aborts := (l.window = .receiving ∨ l.window = .discarding) ∧ 1 ≤ bytes
      ∃ t, exec (.csNRise p bytes) s = .next t ∧ OnlyAt p s.link t.link ∧ ChangesOnly s t [.link, .att] ∧
        (aborts → t.link.get p = { l with
            csLow := false, window := .idle, sending := none, abortedRequests := counted l.abortedRequests 1 } ∧
          RaisedTo s t .linkError [p]) ∧
        (¬ aborts → t.link.get p = { l with csLow := false, window := .idle, sending := none } ∧ t.att = s.att)

/-- A RECEIVING window whose request is too long or fails its CRC is answered by the link; nothing is recorded or
executed; only the CRC failure is counted and told. In any other window the bytes are ignored. That the flags of these
responses are those that hold as the link forms them, for a CRC failure after LINK_ERROR is raised, is the model's
reading (log 12). How a length that contradicts its row is met is the model's reading (log 15). -/
def Obligations.UnacceptableRequestIsAnswered : Prop :=
  ∀ (s : State) (p : Port) (code tag : Byte), s.live p = true →
    let l := s.link.get p
    let long : Link := { l with window := .sending, sending := some ⟨.badLength, tag, false, (s.att.get p).attention, s.inRun, []⟩ }
    (l.window = .receiving →
      (∀ n, 272 < n → ∃ t, exec (.lengthAbove272 p code tag n) s = .next t ∧ ChangesOnly s t [.link] ∧
        OnlyAt p s.link t.link ∧ t.link.get p = long) ∧
      (∀ payload crc, 272 < payload.length → ∃ t, exec (.requestReceived p code tag payload crc) s = .next t ∧
        ChangesOnly s t [.link] ∧ OnlyAt p s.link t.link ∧ t.link.get p = long) ∧
      ∀ payload crc, payload.length ≤ 272 → crc ≠ Request.crc ⟨code, tag, payload⟩ →
        ∃ t, exec (.requestReceived p code tag payload crc) s = .next t ∧ ChangesOnly s t [.link, .att] ∧
          OnlyAt p s.link t.link ∧ RaisedTo s t .linkError [p] ∧
          t.link.get p = { l with
            window := .sending
            sending := some ⟨.crcError, tag, false, (t.att.get p).attention, s.inRun, []⟩
            crcErrors := counted l.crcErrors 1 }) ∧
    (∀ n, n ≤ 272 → exec (.lengthAbove272 p code tag n) s = .next s) ∧
    (l.window ≠ .receiving → (∀ n, exec (.lengthAbove272 p code tag n) s = .next s) ∧
      ∀ payload crc, exec (.requestReceived p code tag payload crc) s = .next s)

/-- A well-formed request is taken when no request executes and it is no replay: it starts to execute, answered by the
link itself if its code is not in the table; that this answer stands as soon as the request is taken is the model's
reading (log 13). Behind an executing request it waits. -/
def Obligations.RequestIsTakenOrWaits : Prop :=
  ∀ (s : State) (p : Port) (code tag : Byte) (payload : List Byte), s.live p = true →
    (s.link.get p).window = .receiving → payload.length ≤ 272 →
    let l := s.link.get p
    let r : Request := ⟨code, tag, payload⟩
    ∃ t, exec (.requestReceived p code tag payload r.crc) s = .next t ∧ ChangesOnly s t [.link] ∧
      OnlyAt p s.link t.link ∧
      (l.executing.isSome = true → t.link.get p = { l with window := .awaiting, waiting := some r }) ∧
      (l.executing = none → (∀ k, l.record = some k → ¬ (tag ≠ 0 ∧ k.tag = tag ∧ k.code = code)) →
        t.link.get p = { l with
          window := .awaiting
          executing := some r
          answer := if commandOf p code payload = none then
            some ⟨.reply .badCommand [], s.inRun⟩ else none })

/-- The end of an execution forms the response of the answer under the request's tag, with the RUN flag formed with the
answer and the ATTENTION flag that holds as the execution ends (log 12); records the request and its response, but for
REPEAT and for a PORT_RESET that was carried out; sends the response if its window still awaits it; and takes the
request that waited, replay test first, against the record just made, answering a code that is not in the table as it
does so (log 13). -/
def Obligations.ExecutionEndRecordsAndSends : Prop :=
  ∀ (s : State) (p : Port) (r : Request) (f : Formed), s.live p = true →
    (s.link.get p).executing = some r → (s.link.get p).answer = some f →
    let l := s.link.get p
    let resp : Response := match f.answer with
      | .reply st payload => ⟨st, r.tag, false, (s.att.get p).attention, f.run, payload⟩
      | .stored x => { x with replay := true }
    let record := if r.code = 0x02 ∨ (r.code = 0x03 ∧ resp.status = .ok) then l.record else some ⟨r.tag, r.code, resp⟩
    ∃ t, exec (.executionEnd p) s = .next t ∧ ChangesOnly s t [.link] ∧ OnlyAt p s.link t.link ∧
      (l.waiting = none → t.link.get p = { l with
        record := record, executing := none, answer := none
        window := if l.window = .awaiting then .sending else l.window
        sending := if l.window = .awaiting then some resp else l.sending }) ∧
      (∀ w, l.waiting = some w → (∀ k, record = some k → ¬ (w.tag ≠ 0 ∧ k.tag = w.tag ∧ k.code = w.code)) →
        t.link.get p = { l with
          record := record, waiting := none, executing := some w
          answer := if commandOf p w.code w.payload = none then
            some ⟨.reply .badCommand [], s.inRun⟩ else none }) ∧
      ∀ w k, l.waiting = some w → record = some k → w.tag ≠ 0 → k.tag = w.tag → k.code = w.code →
        t.link.get p = { l with
          record := record, waiting := none, executing := none, answer := none, replays := counted l.replays 1
          window := if l.window = .awaiting then .sending else l.window
          sending := if l.window = .awaiting then some { k.response with replay := true } else l.sending }

/-- R174: a well-formed request with a nonzero tag and the recorded tag and command executes nothing: it changes only
the port's replays counter and is answered with the stored response marked REPLAY. REPEAT answers with the stored
response, EMPTY when there is none, and BAD_LENGTH for a payload; it changes nothing. -/
def Obligations.StoredResponseIsReturned : Prop :=
  (∀ (s : State) (p : Port) (tag : Byte) (payload : List Byte) (k : LinkRecord), s.live p = true →
    (s.link.get p).window = .receiving → payload.length ≤ 272 → (s.link.get p).executing = none →
    (s.link.get p).record = some k → tag ≠ 0 → k.tag = tag →
    let r : Request := ⟨k.code, tag, payload⟩
    ∃ t, exec (.requestReceived p k.code tag payload r.crc) s = .next t ∧ ChangesOnly s t [.link] ∧
      OnlyAt p s.link t.link ∧ t.link.get p = { s.link.get p with
        window := .sending
        answer := none
        replays := counted (s.link.get p).replays 1
        sending := some { k.response with replay := true } }) ∧
  ∀ (s : State) (p : Port) (payload : List Byte), s.takes (.repeatLast p payload) = true →
    (payload ≠ [] → JustAnswers (.repeatLast p payload) s p .badLength []) ∧
    (payload = [] → (s.link.get p).record = none → JustAnswers (.repeatLast p payload) s p .empty []) ∧
    ∀ k, payload = [] → (s.link.get p).record = some k →
      ∃ t, exec (.repeatLast p payload) s = .next t ∧ Answers s t p (.stored k.response) ∧ ChangesOnly s t [.link]

/-! ## Encodings -/

/-- The command codes of Table 11-14 name each command, code by code, and are read back to it: the 36 codes of the
table, and no other, give a command. The field encodings of R178 are read back to what they encode, and a byte that
encodes nothing is refused. -/
def Obligations.CodesRoundTrip : Prop :=
  (∀ (p : Port) (code : Byte) (payload : List Byte) (i : Instr),
    commandOf p code payload = some i ↔ i.command? = some (p, code, payload)) ∧
  (∀ (p : Port) (b : List Byte),
    commandOf p 0x01 b = some (.status p b) ∧ commandOf p 0x02 b = some (.repeatLast p b) ∧
    commandOf p 0x03 b = some (.portReset p b) ∧ commandOf p 0x04 b = some (.readCounters p b) ∧
    commandOf p 0x10 b = some (.setQuota p b) ∧ commandOf p 0x11 b = some (.setRxq p b) ∧
    commandOf p 0x12 b = some (.setLease p b) ∧ commandOf p 0x13 b = some (.setDeadline p b) ∧
    commandOf p 0x14 b = some (.setFrame p b) ∧ commandOf p 0x18 b = some (.ready p b) ∧
    commandOf p 0x19 b = some (.unready p b) ∧ commandOf p 0x1A b = some (.join p b) ∧
    commandOf p 0x1B b = some (.leave p b) ∧ commandOf p 0x20 b = some (.openLane p b) ∧
    commandOf p 0x21 b = some (.closeLane p b) ∧ commandOf p 0x22 b = some (.purgeLane p b) ∧
    commandOf p 0x23 b = some (.laneInfo p b) ∧ commandOf p 0x30 b = some (.send p b) ∧
    commandOf p 0x31 b = some (.fetch p b) ∧ commandOf p 0x32 b = some (.reread p b) ∧
    commandOf p 0x33 b = some (.ack p b) ∧ commandOf p 0x34 b = some (.returnLease p b) ∧
    commandOf p 0x35 b = some (.getReport p b) ∧ commandOf p 0x40 b = some (.readEntry p b) ∧
    commandOf p 0x41 b = some (.claim p b) ∧ commandOf p 0x42 b = some (.writeEntry p b) ∧
    commandOf p 0x43 b = some (.clearEntry p b) ∧ commandOf p 0x44 b = some (.disown p b) ∧
    commandOf p 0x45 b = some (.readHeader p b) ∧ commandOf p 0x48 b = some (.propose p b) ∧
    commandOf p 0x49 b = some (.vote p b) ∧ commandOf p 0x4A b = some (.withdraw p b) ∧
    commandOf p 0x4B b = some (.planStatus p b) ∧ commandOf p 0x50 b = some (.getEvents p b) ∧
    commandOf p 0x51 b = some (.clearEvents p b) ∧ commandOf p 0x52 b = some (.setEventMask p b)) ∧
  (∀ (p : Port) (code : Byte) (payload : List Byte), (commandOf p code payload).isSome = true ↔
    code.toNat ∈ [0x01, 0x02, 0x03, 0x04] ++ [0x10, 0x11, 0x12, 0x13, 0x14, 0x18, 0x19, 0x1A, 0x1B] ++
      [0x20, 0x21, 0x22, 0x23, 0x30, 0x31, 0x32, 0x33, 0x34, 0x35] ++ [0x40, 0x41, 0x42, 0x43, 0x44, 0x45] ++
      [0x48, 0x49, 0x4A, 0x4B, 0x50, 0x51, 0x52]) ∧
  (∀ b n g, handleOf b = some (n, g) ↔ b = handleByte n g) ∧ (∀ b, handleOf b = none ↔ 64 ≤ b.toNat) ∧
  (∀ b t, portSetOf b = some t ↔ b = portSetByte t) ∧ (∀ b, portSetOf b = none ↔ 16 ≤ b.toNat) ∧
  (∀ b p, portOf b = some p ↔ b = portByte p) ∧ (∀ b, portOf b = none ↔ 4 ≤ b.toNat) ∧
  (∀ lo hi k, eventSetOf lo hi = some k ↔ [lo, hi] = eventSetBytes k) ∧ (∀ lo hi, eventSetOf lo hi = none ↔ 16 ≤ hi.toNat) ∧
  (∀ b l, laneOf b = some l ↔ b = byteOf l.val) ∧ (∀ b, laneOf b = none ↔ 32 ≤ b.toNat) ∧
  (∀ b v, policyOf b = some v ↔ b = v.code) ∧ ∀ b v, reportModeOf b = some v ↔ b = v.code

/-- A response frame as it is sent determines the response, every field of it, whatever the payload's length. -/
def Obligations.ResponseFrameDeterminesResponse : Prop :=
  ∀ r r' : Response, r.bytes = r'.bytes → r = r'

/-! ## Membership Controller -/

/-- R164: STATUS answers the values of Table 10-7 at the offsets of Table 11-17, and changes nothing. -/
def Obligations.StatusReportsPart : Prop :=
  ∀ (s : State) (p : Port) (payload : List Byte), s.takes (.status p payload) = true →
    (payload ≠ [] → JustAnswers (.status p payload) s p .badLength []) ∧
    (payload = [] → ∃ b, JustAnswers (.status p payload) s p .ok b ∧ b.length = 32 ∧
      byteAt b 0 = p.toNat ∧ byteAt b 1 = (if s.inRun then 1 else 0) ∧
      (∀ q, byteAt b 2 / 4 ^ q.toNat % 4 = (s.portState q).code) ∧
      halfAt b 3 = (s.params p).reserve % 65536 ∧ halfAt b 5 = (s.params p).ceiling % 65536 ∧
      byteAt b 7 = (s.params p).depth % 256 ∧ byteAt b 8 = (s.params p).watermark % 256 ∧
      halfAt b 9 = (s.params p).leaseTime % 65536 ∧ byteAt b 11 = (s.params p).redelivery % 256 ∧
      byteAt b 12 = s.mbc.deadline % 256 ∧ halfAt b 13 = (Port.sum fun q => (s.params q).reserve) % 65536 ∧
      byteAt b 15 = (if s.timer.state = .running then 1 else 0) ∧ halfAt b 16 = s.timer.cycle.toNat ∧
      byteAt b 18 = s.timer.slot.toNat ∧ halfAt b 19 = s.timer.header.slots % 65536 ∧
      halfAt b 21 = s.timer.header.length % 65536 ∧ halfAt b 23 = s.mst.free.length % 65536 ∧
      halfAt b 25 = (List.finRange 256).countP (fun d => (s.desc d).isNone) ∧
      halfAt b 27 = s.mst.held.get p % 65536 ∧ byteAt b 29 = (s.rx.get p).queue.length % 256 ∧
      byteAt b 30 = (List.finRange 4).countP (fun n => ((s.rx.get p).slots.at n).lease.isSome) ∧
      byteAt b 31 = (s.rpt.get p).queue.length % 256)

/-- SET_QUOTA, SET_RXQ, SET_LEASE and SET_DEADLINE in SETUP set the parameters they carry and say whether a value
changed; the first check that fails answers and changes nothing. -/
def Obligations.SetupWritesCheckAndSet : Prop :=
  ∀ (s : State) (p : Port) (b0 b1 b2 b3 : Byte),
    let w := s.params p
    let r := b0.toNat + 256 * b1.toNat
    let c := b2.toNat + 256 * b3.toNat
    (s.takes (.setQuota p [b0, b1, b2, b3]) = true →
      match firstFailing [(!s.inRun, .wrongState), (decide (r ≤ 512 ∧ 1 ≤ c ∧ c ≤ 512), .badArgument),
        (decide (r ≤ c), .badArgument),
        (decide ((Port.sum fun q => if q = p then r else (s.params q).reserve) ≤ 512), .limit)] with
      | some st => JustAnswers (.setQuota p [b0, b1, b2, b3]) s p st []
      | none => ∃ t, exec (.setQuota p [b0, b1, b2, b3]) s = .next t ∧
          Answers s t p (.reply .ok [if w.reserve = r ∧ w.ceiling = c then 0 else 1]) ∧ ChangesOnly s t [.link, .mbc, .att] ∧
          t.params p = { w with reserve := r, ceiling := c } ∧ (∀ q, q ≠ p → t.params q = s.params q) ∧
          t.mbc.deadline = s.mbc.deadline ∧ t.inRun = false) ∧
    (s.takes (.setRxq p [b0, b1]) = true →
      match firstFailing [(!s.inRun, .wrongState),
        (decide (4 ≤ b0.toNat ∧ b0.toNat ≤ 32 ∧ 1 ≤ b1.toNat ∧ b1.toNat ≤ b0.toNat), .badArgument)] with
      | some st => JustAnswers (.setRxq p [b0, b1]) s p st []
      | none => ∃ t, exec (.setRxq p [b0, b1]) s = .next t ∧
          Answers s t p (.reply .ok [if w.depth = b0.toNat ∧ w.watermark = b1.toNat then 0 else 1]) ∧
          ChangesOnly s t [.link, .mbc, .att] ∧ t.params p = { w with depth := b0.toNat, watermark := b1.toNat } ∧
          (∀ q, q ≠ p → t.params q = s.params q) ∧ t.mbc.deadline = s.mbc.deadline ∧ t.inRun = false) ∧
    (s.takes (.setLease p [b0, b1, b2]) = true →
      match firstFailing [(!s.inRun, .wrongState), (decide (1 ≤ r ∧ r ≤ 1000 ∧ b2.toNat ≤ 7), .badArgument)] with
      | some st => JustAnswers (.setLease p [b0, b1, b2]) s p st []
      | none => ∃ t, exec (.setLease p [b0, b1, b2]) s = .next t ∧
          Answers s t p (.reply .ok [if w.leaseTime = r ∧ w.redelivery = b2.toNat then 0 else 1]) ∧
          ChangesOnly s t [.link, .mbc, .att] ∧ t.params p = { w with leaseTime := r, redelivery := b2.toNat } ∧
          (∀ q, q ≠ p → t.params q = s.params q) ∧ t.mbc.deadline = s.mbc.deadline ∧ t.inRun = false) ∧
    (s.takes (.setDeadline p [b0]) = true →
      match firstFailing [(!s.inRun, .wrongState), (decide (1 ≤ b0.toNat ∧ b0.toNat ≤ 15), .badArgument)] with
      | some st => JustAnswers (.setDeadline p [b0]) s p st []
      | none => ∃ t, exec (.setDeadline p [b0]) s = .next t ∧
          Answers s t p (.reply .ok [if s.mbc.deadline = b0.toNat then 0 else 1]) ∧ ChangesOnly s t [.link, .mbc, .att] ∧
          (∀ q, t.params q = s.params q) ∧ t.mbc.deadline = b0.toNat ∧ t.inRun = false) ∧
    ∀ (i : Instr) (payload : List Byte), s.takes i = true →
      (i = .setQuota p payload ∧ payload.length ≠ 4) ∨ (i = .setRxq p payload ∧ payload.length ≠ 2) ∨
        (i = .setLease p payload ∧ payload.length ≠ 3) ∨ (i = .setDeadline p payload ∧ payload.length ≠ 1) →
      JustAnswers i s p .badLength []

/-- R154: a setup write or a SET_FRAME taken in SETUP that changes a stored value makes every READY port OFFLINE and
raises READY_CLEARED to exactly those; one that changes none clears and raises nothing. -/
def Obligations.SetupChangeClearsReadyMarks : Prop :=
  ∀ (s : State) (p : Port) (payload : List Byte) (i : Instr), s.takes i = true → s.inRun = false →
    i ∈ [Instr.setQuota p payload, .setRxq p payload, .setLease p payload, .setDeadline p payload, .setFrame p payload] →
    ∃ t, exec i s = .next t ∧
      let same := t.mbc.params = s.mbc.params ∧ t.mbc.deadline = s.mbc.deadline ∧ t.cal.shadow.header = s.cal.shadow.header
      (same → t.mbc.ports = s.mbc.ports ∧ t.att = s.att) ∧
      (¬ same → (∀ q, t.portState q = if s.portState q = .ready then .offline else s.portState q) ∧
        RaisedTo s t .readyCleared (Port.all.filter fun q => s.portState q == .ready))

/-- READY while another enabled port is OFFLINE sets the port's mark and answers how many are still OFFLINE, with the
RUN flag clear. R156: UNREADY takes the port's own mark back, and nothing else. The first check that fails answers and
changes nothing. -/
def Obligations.ReadyMarksAreSetAndTakenBack : Prop :=
  ∀ (s : State) (p : Port) (payload : List Byte),
    (s.takes (.ready p payload) = true →
      match firstFailing [(decide (payload = []), .badLength), (!s.inRun, .wrongState)] with
      | some st => JustAnswers (.ready p payload) s p st []
      | none =>
        let others := Port.all.filter fun q => q != p && s.portState q == .offline
        (s.portState p ≠ .offline → JustAnswers (.ready p payload) s p .ok [byteOf others.length]) ∧
        (s.portState p = .offline → others ≠ [] → ∃ t, exec (.ready p payload) s = .next t ∧
          Answers s t p (.reply .ok [byteOf others.length]) ∧ ChangesOnly s t [.link, .mbc] ∧
          (t.link.get p).answer.map (·.run) = some false ∧ t.mbc = { s.mbc with ports := s.mbc.ports.set p .ready })) ∧
    (s.takes (.unready p payload) = true →
      match firstFailing [(decide (payload = []), .badLength), (!s.inRun, .wrongState)] with
      | some st => JustAnswers (.unready p payload) s p st []
      | none => ∃ t, exec (.unready p payload) s = .next t ∧ Answers s t p (.reply .ok []) ∧
          ChangesOnly s t [.link, .mbc] ∧ t.mbc = { s.mbc with
            ports := s.mbc.ports.set p (if s.portState p = .ready then .offline else s.portState p) })

/-- The READY that leaves no enabled port OFFLINE starts RUN: every READY port is ONLINE and told, the shadow header is
the active bank's and times cycle 0, which begins now with SYNC_OUT high; the answer has the RUN flag set. Premises:
what every lawful SETUP holds, no proposal standing and every entry unowned. -/
def Obligations.LastReadyStartsRun : Prop :=
  ∀ (s : State) (p : Port), s.takes (.ready p []) = true → s.inRun = false → s.portState p = .offline →
    (∀ q, q ≠ p → s.portState q ≠ .offline) → s.plan.proposal = none →
    (∀ bk i, (s.cal.bank bk).entries.at i = Entry.unowned) →
    ∃ t, exec (.ready p []) s = .next t ∧ Answers s t p (.reply .ok [0]) ∧
      ChangesOnly s t [.link, .mbc, .att, .cal, .timer] ∧ t.inRun = true ∧
      (t.link.get p).answer.map (·.run) = some true ∧ t.mbc.params = s.mbc.params ∧
      t.mbc.deadline = s.mbc.deadline ∧
      (∀ q, t.portState q = if q = p ∨ s.portState q = .ready then .online else s.portState q) ∧
      RaisedTo s t .exchangeRun (Port.all.filter fun q => q == p || s.portState q == .ready) ∧
      t.cal.active = s.cal.active ∧ t.cal.shadow = s.cal.shadow ∧
      t.cal.activeBank = { s.cal.activeBank with header := s.cal.shadow.header } ∧
      t.timer = { s.timer with
        state := .running, cycle := 0, slot := 0, header := s.cal.shadow.header
        nextSlot := some (s.timer.timeBase + BitVec.ofNat 32 s.cal.shadow.header.length)
        syncOut := true, syncEnd := some (s.timer.timeBase + 8) }

/-- JOIN in RUN makes the port ONLINE and tells the other ONLINE ports; it answers the cycle counter. -/
def Obligations.JoinMakesPortOnline : Prop :=
  ∀ (s : State) (p : Port) (payload : List Byte), s.takes (.join p payload) = true →
    match firstFailing [(decide (payload = []), .badLength), (s.inRun, .wrongState), (!s.online p, .wrongState)] with
    | some st => JustAnswers (.join p payload) s p st []
    | none => ∃ t, exec (.join p payload) s = .next t ∧
        (∃ b, Answers s t p (.reply .ok b) ∧ b.length = 2 ∧ halfAt b 0 = s.timer.cycle.toNat) ∧
        ChangesOnly s t [.link, .mbc, .att] ∧ t.mbc = { s.mbc with ports := s.mbc.ports.set p .online } ∧
        RaisedTo s t .memberChange (Port.all.filter fun q => q != p && s.online q)

/-- LEAVE gives up everything the port had: its proposal, its shadow entries, its lanes with their messages, its leases
and queued deliveries, its unread reports; its attention state and its setup parameters stay. The last leave returns the
exchange to SETUP with both banks cleared. The messages waiting in its lanes end as PURGED, and its deliveries become
ABANDONED, each message that this ends being reported to a source still ONLINE: stated where every reference to a
descriptor is accounted for, which every step keeps. -/
def Obligations.LeaveGivesUpEverything : Prop :=
  ∀ (s : State) (p : Port) (payload : List Byte), s.takes (.leave p payload) = true →
    match firstFailing [(decide (payload = []), .badLength), (s.inRun, .wrongState), (s.online p, .notMember)] with
    | some st => JustAnswers (.leave p payload) s p st []
    | none => ∃ t, exec (.leave p payload) s = .next t ∧ Answers s t p (.reply .ok []) ∧ Leaves s t p ∧
        (s.ReferencesLawful → LeavesMessages s t p)

/-- PORT_RESET clears the port's events, counters and link record and takes its READY mark or, with all the effects of a
leave, its membership; the setup parameters, the snapshot number and the lease generations stay. -/
def Obligations.PortResetClearsPort : Prop :=
  ∀ (s : State) (p : Port) (payload : List Byte), s.takes (.portReset p payload) = true →
    (payload ≠ [] → JustAnswers (.portReset p payload) s p .badLength []) ∧
    (payload = [] → ∃ u t, exec (.portReset p payload) s = .next t ∧
      ChangesOnly u t [.link, .mst, .rx, .rpt, .att] ∧
      t.mst = { u.mst with refusals := u.mst.refusals.set p ⟨0, 0, 0⟩ } ∧
      t.rpt = u.rpt.set p { u.rpt.get p with lost := 0 } ∧ OnlyAt p u.rx t.rx ∧ OnlyAt p u.att t.att ∧ u.link = s.link ∧
      t.att.get p = ⟨0, 0, 0x7FF, none, (s.att.get p).nextSnapshot, false⟩ ∧ OnlyAt p s.link t.link ∧
      t.link.get p = { s.link.get p with
        record := none, crcErrors := 0, abortedRequests := 0, replays := 0
        answer := some ⟨.reply .ok [1], t.inRun⟩ } ∧
      (t.rx.get p).queue = (u.rx.get p).queue ∧ (t.rx.get p).rxMissed = 0 ∧ (t.rx.get p).leaseExpiries = 0 ∧
      (t.rx.get p).deliveriesExpired = 0 ∧ t.counters p = List.replicate 10 0 ∧
      (∀ n, (t.rx.get p).slots.at n = { (u.rx.get p).slots.at n with lastEnd := none }) ∧
      t.mbc.ports = s.mbc.ports.set p .offline ∧ t.mbc.params = s.mbc.params ∧ t.mbc.deadline = s.mbc.deadline ∧
      (s.online p = true → Leaves s u p ∧ (s.ReferencesLawful → LeavesMessages s u p)) ∧
      (s.online p = false → u = { s with mbc := { s.mbc with ports := s.mbc.ports.set p .offline } }))

/-! ## Lanes and the Message Store -/

/-- OPEN_LANE makes its checks in order and opens the lane with the settings it carries and zeroed counters. -/
def Obligations.OpenLaneChecksThenOpens : Prop :=
  ∀ (s : State) (p : Port) (b : List Byte), s.takes (.openLane p b) = true →
    let ln := s.laneNo (byteAt b 0)
    match firstFailing [(decide (b.length = 6), .badLength), (s.inRun, .wrongState), (s.online p, .notMember),
      (decide (byteAt b 0 < 32), .badArgument),
      (decide (1 ≤ byteAt b 1 ∧ byteAt b 1 ≤ 15), .badArgument),
      (Port.all.all fun q => byteAt b 1 / 2 ^ q.toNat % 2 == 0 || s.portState q != .disabled, .badArgument),
      (decide (1 ≤ byteAt b 2 ∧ byteAt b 2 ≤ 32 ∧ byteAt b 3 ≤ 1 ∧ byteAt b 4 ≤ 2), .badArgument),
      (ln.state == .closed, .laneState),
      (([BankId.a, .b].all fun bk => (List.finRange 256).all fun i =>
        match ((s.cal.bank bk).entries.at i).release with
        | none => true
        | some r => r.lane.val != byteAt b 0), .laneScheduled)] with
    | some st => JustAnswers (.openLane p b) s p st []
    | none => ∃ t l dest, exec (.openLane p b) s = .next t ∧ Answers s t p (.reply .ok []) ∧
        ChangesOnly s t [.link, .lanes] ∧ l.val = byteAt b 0 ∧ OnlyAtIndex l s.lanes t.lanes ∧
        (∀ q, dest.get q = (byteAt b 1 / 2 ^ q.toNat % 2 == 1)) ∧
        t.lane l = { s.lane l with
          state := .opened
          settings := some ⟨p, dest, byteAt b 2, if byteAt b 3 = 0 then .miss else .hold,
            if byteAt b 4 = 0 then .none else if byteAt b 4 = 1 then .failures else .all, byteAt b 5⟩
          counters := ⟨0, 0, 0, 0, 0, 0⟩ }

/-- CLOSE_LANE makes its checks in order and leaves an empty lane CLOSED and another DRAINING. -/
def Obligations.CloseLaneChecksThenCloses : Prop :=
  ∀ (s : State) (p : Port) (b : List Byte), s.takes (.closeLane p b) = true →
    let ln := s.laneNo (byteAt b 0)
    let next : LaneState := if ln.queue = [] then .closed else .draining
    match firstFailing [(decide (b.length = 1), .badLength), (s.inRun, .wrongState), (s.online p, .notMember),
      (decide (byteAt b 0 < 32), .badArgument), (ln.state != .closed, .laneState), (ln.owner == some p, .notOwner),
      (ln.state != .draining, .laneState),
      (s.plan.proposal.isNone || (List.finRange 256).all (fun i =>
        match (s.shadowEntry i).release with
        | none => true
        | some r => r.lane.val != byteAt b 0), .inPlan)] with
    | some st => JustAnswers (.closeLane p b) s p st []
    | none => ∃ t l, exec (.closeLane p b) s = .next t ∧
        Answers s t p (.reply .ok [if ln.queue = [] then 0 else 2]) ∧ ChangesOnly s t [.link, .lanes] ∧
        l.val = byteAt b 0 ∧ OnlyAtIndex l s.lanes t.lanes ∧ t.lane l = { s.lane l with state := next }

/-- PURGE_LANE makes its checks in order, ends every message of the queue and closes a DRAINING lane; the messages it
ends are freed and no lane but the one named changes. Each ends as PURGED, head first, where every reference to a
descriptor is accounted for, which every step keeps. -/
def Obligations.PurgeLaneEndsItsMessages : Prop :=
  ∀ (s : State) (p : Port) (b : List Byte), s.takes (.purgeLane p b) = true →
    let ln := s.laneNo (byteAt b 0)
    match firstFailing [(decide (b.length = 1), .badLength), (s.inRun, .wrongState), (s.online p, .notMember),
      (decide (byteAt b 0 < 32), .badArgument), (ln.state != .closed, .laneState), (ln.owner == some p, .notOwner)] with
    | some st => JustAnswers (.purgeLane p b) s p st []
    | none => ∃ t l, exec (.purgeLane p b) s = .next t ∧
        Answers s t p (.reply .ok [byteOf ln.queue.length, if ln.state = .draining then 0 else 1]) ∧
        ChangesOnly s t [.link, .lanes, .mst, .rpt, .att] ∧ l.val = byteAt b 0 ∧ OnlyAtIndex l s.lanes t.lanes ∧
        t.lane l = { s.lane l with queue := [], state := if ln.state = .draining then .closed else .opened } ∧
        (∀ d, t.desc d = if d ∈ ln.queue then none else s.desc d) ∧
        (ln.queue = [] → ChangesOnly s t [.link, .lanes]) ∧
        (∀ d m, ln.queue = [d] → s.desc d = some m → MessageEnded s t d m .purged) ∧
        (s.ReferencesLawful → ∃ u, MessagesPurged ln.queue s u ∧ ChangesOnly u t [.link, .lanes])

/-- LANE_INFO answers the fields of Table 2-6 at the offsets of Table 11-21 for any lane, and changes nothing. -/
def Obligations.LaneInfoReportsLane : Prop :=
  ∀ (s : State) (p : Port) (payload : List Byte), s.takes (.laneInfo p payload) = true →
    match firstFailing [(decide (payload.length = 1), .badLength), (s.inRun, .wrongState), (s.online p, .notMember),
      (decide (byteAt payload 0 < 32), .badArgument)] with
    | some st => JustAnswers (.laneInfo p payload) s p st []
    | none => ∃ b, JustAnswers (.laneInfo p payload) s p .ok b ∧ b.length = 25 ∧ byteAt b 0 = byteAt payload 0 ∧
        let ln := s.laneNo (byteAt payload 0)
        byteAt b 1 = (match ln.state with | .closed => 0 | .opened => 1 | .draining => 2) ∧
        byteAt b 2 % 2 = (if ln.settings.isSome then 1 else 0) ∧ byteAt b 2 / 2 % 2 = (if ln.queue = [] then 0 else 1) ∧
        (byteAt b 2 / 4 % 2 = 1 ↔ ∃ i r, (s.cal.activeBank.entries.at i).release = some r ∧ r.lane.val = byteAt payload 0) ∧
        (byteAt b 2 / 8 % 2 = 1 ↔ ∃ i r, (s.shadowEntry i).release = some r ∧ r.lane.val = byteAt payload 0) ∧
        (∀ t, ln.settings = some t → byteAt b 3 = t.owner.toNat ∧ (∀ q, byteAt b 4 / 2 ^ q.toNat % 2 = (t.dest.get q).toNat) ∧
          byteAt b 5 = t.depth % 256 ∧ byteAt b 6 = (if t.policy = .hold then 1 else 0) ∧
          byteAt b 7 = (match t.reportMode with | .none => 0 | .failures => 1 | .all => 2) ∧ byteAt b 8 = t.maxAge % 256) ∧
        byteAt b 9 = ln.queue.length % 256 ∧
        (∀ d rest m, ln.queue = d :: rest → s.desc d = some m →
          byteAt b 10 = d.val ∧ halfAt b 11 = m.submitCycle.toNat) ∧
        halfAt b 13 = ln.counters.sent.toNat ∧ halfAt b 15 = ln.counters.released.toNat ∧
        halfAt b 17 = ln.counters.missed.toNat ∧ halfAt b 19 = ln.counters.stale.toNat ∧
        halfAt b 21 = ln.counters.heldSlots.toNat ∧ halfAt b 23 = ln.counters.idleSlots.toNat

/-- The checks of SEND in order: the common ones, the Lane Unit's, the Message Store's three. A refusal of the store
raises the source's matching counter and changes nothing else; any other changes nothing. -/
def Obligations.SendIsCheckedInOrder : Prop :=
  ∀ (s : State) (p : Port) (b : List Byte) (st : Status), s.takes (.send p b) = true →
    let ln := s.laneNo (byteAt b 0)
    let k := (b.length - 3 + 63) / 64
    firstFailing [(decide (4 ≤ b.length ∧ b.length ≤ 259), .badLength), (s.inRun, .wrongState), (s.online p, .notMember),
      (decide (byteAt b 0 < 32), .badArgument), (ln.state != .closed, .laneState), (ln.owner == some p, .notOwner),
      (ln.state == .opened, .laneState),
      (ln.settings.any fun t => decide (ln.queue.length < t.depth), .laneFull),
      ((List.finRange 256).any fun d => (s.desc d).isNone, .noDescriptor),
      (decide (s.mst.held.get p + k ≤ (s.params p).ceiling), .quota),
      (decide (k + (Port.sum fun q => (s.params q).reserve - (s.mst.held.get q + if q = p then k else 0)) ≤
        s.mst.free.length), .pool)] = some st →
    if st = .noDescriptor ∨ st = .quota ∨ st = .pool then
      ∃ t, exec (.send p b) s = .next t ∧ Answers s t p (.reply st []) ∧ ChangesOnly s t [.link, .mst] ∧
        t.mst = { s.mst with refusals := t.mst.refusals } ∧ OnlyAt p s.mst.refusals t.mst.refusals ∧
        t.mst.refusals.get p =
          ⟨if st = .noDescriptor then counted (s.mst.refusals.get p).descriptor 1 else (s.mst.refusals.get p).descriptor,
            if st = .quota then counted (s.mst.refusals.get p).quota 1 else (s.mst.refusals.get p).quota,
            if st = .pool then counted (s.mst.refusals.get p).pool 1 else (s.mst.refusals.get p).pool⟩
    else JustAnswers (.send p b) s p st []

/-- A SEND that passes is granted: the lowest FREE descriptor is written, the buffers come from the head of the free
list, the data lies in them and nowhere else, the descriptor joins its lane's queue at the tail. -/
def Obligations.SendIsGranted : Prop :=
  ∀ (s : State) (p : Port) (b0 l0 l1 : Byte) (data : List Byte) (l : LaneId) (st : LaneSettings) (d : DescId),
    let k := (data.length + 63) / 64
    s.takes (.send p (b0 :: l0 :: l1 :: data)) = true → 1 ≤ data.length → data.length ≤ 256 →
    s.inRun = true → s.online p = true → l.val = b0.toNat → (s.lane l).state = .opened →
    (s.lane l).settings = some st → st.owner = p → (s.lane l).queue.length < st.depth →
    s.desc d = none → (∀ d', d' < d → s.desc d' ≠ none) → s.mst.held.get p + k ≤ (s.params p).ceiling →
    k + (Port.sum fun q => (s.params q).reserve - (s.mst.held.get q + if q = p then k else 0)) ≤ s.mst.free.length →
    ∃ t m, exec (.send p (b0 :: l0 :: l1 :: data)) s = .next t ∧
      (∃ a, Answers s t p (.reply .ok a) ∧ a.length = 4 ∧ byteAt a 0 = d.val ∧ halfAt a 1 = s.timer.cycle.toNat ∧
        byteAt a 3 = ((s.lane l).queue.length + 1) % 256) ∧
      ChangesOnly s t [.link, .mst, .lanes] ∧
      t.desc d = some m ∧ OnlyAtIndex d s.mst.desc t.mst.desc ∧
      m.state = .pending ∧ m.source = p ∧ m.lane = l ∧ m.label.toNat = l0.toNat + 256 * l1.toNat ∧
      m.length = data.length ∧ m.fragments = s.mst.free.take k ∧ m.fragments.length = k ∧ m.reportMode = st.reportMode ∧
      m.submitCycle = s.timer.cycle ∧ m.stamp = none ∧ m.dest = st.dest ∧ m.outstanding = 0 ∧
      (∀ q, m.delivery.get q = (if st.dest.get q then .waiting else .notDest) ∧ m.attempts.get q = 0) ∧
      t.mst.free = s.mst.free.drop k ∧ t.mst.held.get p = s.mst.held.get p + k ∧ OnlyAt p s.mst.held t.mst.held ∧
      t.mst.refusals = s.mst.refusals ∧ OnlyAtIndex l s.lanes t.lanes ∧
      t.lane l = { s.lane l with
        queue := (s.lane l).queue ++ [d]
        counters := { (s.lane l).counters with sent := counted (s.lane l).counters.sent 1 } } ∧
      (s.mst.free.Nodup → Memory.wf s.mst.pool = true → Memory.load m.fragments m.length t.mst.pool = data) ∧
      ∀ a, (∀ i, i < data.length → a ≠ 64 * (m.fragments.getD (i / 64) 0).val + i % 64) →
        t.mst.pool.read a = s.mst.pool.read a

/-! ## Receive Unit -/

/-- FETCH leases the head of the queue in the lowest FREE slot, with the next generation and a deadline one lease time
ahead, and returns the message; the first check that fails answers and changes nothing. -/
def Obligations.FetchLeasesQueueHead : Prop :=
  ∀ (s : State) (p : Port) (payload : List Byte), s.takes (.fetch p payload) = true →
    match firstFailing [(decide (payload = []), .badLength), (s.inRun, .wrongState), (s.online p, .notMember),
      ((List.finRange 4).any fun n => ((s.rx.get p).slots.at n).lease.isNone, .noLeaseSlot),
      ((s.rx.get p).queue != [], .empty)] with
    | some st => JustAnswers (.fetch p payload) s p st []
    | none => ∀ d rest m n, (s.rx.get p).queue = d :: rest → s.desc d = some m →
        ((s.rx.get p).slots.at n).lease = none → (∀ n', n' < n → ((s.rx.get p).slots.at n').lease ≠ none) →
        let m' := { m with delivery := m.delivery.set p .leased, attempts := m.attempts.set p (m.attempts.get p + 1) }
        ∃ t a, exec (.fetch p payload) s = .next t ∧ Answers s t p (.reply .ok a) ∧ IsContent a t p n d m' ∧
          ChangesOnly s t [.link, .mst, .rx] ∧ t.mst = { s.mst with desc := s.mst.desc.put d (some m') } ∧
          OnlyAt p s.rx t.rx ∧ t.rx.get p = { s.rx.get p with queue := rest, slots := (t.rx.get p).slots } ∧
          OnlyAtIndex n (s.rx.get p).slots (t.rx.get p).slots ∧
          (t.rx.get p).slots.at n = { (s.rx.get p).slots.at n with
            lease := some ⟨d, s.timer.timeBase + BitVec.ofNat 32 (1000 * (s.params p).leaseTime)⟩
            generation := ((s.rx.get p).slots.at n).generation + 1 }

/-- R113: REREAD, ACK and RETURN are checked in order; a handle whose slot is not HELD with its generation is answered
LATE when the lease it named expired last of that slot, and BAD_LEASE otherwise; nothing changes. A REREAD whose handle
acts returns the message and changes nothing. -/
def Obligations.HandlesResolve : Prop :=
  ∀ (s : State) (p : Port) (payload : List Byte) (n : SlotId) (g : BitVec 4),
    let sl := (s.rx.get p).slots.at n
    let member : List (Bool × Status) := [(s.inRun, .wrongState), (s.online p, .notMember)]
    let handle : List (Bool × Status) := [(decide (byteAt payload 0 < 64), .badArgument)]
    let lease : List (Bool × Status) := [(sl.lease.isSome && sl.generation == g,
      if sl.lastEnd = some ⟨g, .expired⟩ then .late else .badLease)]
    (byteAt payload 0 < 64 → byteAt payload 0 = 16 * n.val + g.toNat) →
    (∀ i ∈ [Instr.reread p payload, .ack p payload], s.takes i = true → ∀ st,
      firstFailing ((decide (payload.length = 1), .badLength) :: (member ++ handle ++ lease)) = some st →
      JustAnswers i s p st []) ∧
    (s.takes (.returnLease p payload) = true → ∀ st,
      firstFailing ((decide (payload.length = 2), .badLength) :: (member ++ handle ++
        [(decide (byteAt payload 1 ≤ 1), .badArgument)] ++ lease)) = some st →
      JustAnswers (.returnLease p payload) s p st []) ∧
    ∀ l m, s.takes (.reread p payload) = true →
      firstFailing ((decide (payload.length = 1), .badLength) :: (member ++ handle ++ lease)) = none →
      sl.lease = some l → s.desc l.desc = some m →
      ∃ a, JustAnswers (.reread p payload) s p .ok a ∧ IsContent a s p n l.desc m

/-- An ACK whose handle acts settles the lease as delivered; the last delivery settled ends the message. -/
def Obligations.AckSettlesDelivery : Prop :=
  ∀ (s : State) (p : Port) (b : Byte) (n : SlotId) (l : Lease) (m : Desc), s.takes (.ack p [b]) = true →
    s.inRun = true → s.online p = true → ((s.rx.get p).slots.at n).lease = some l →
    b = handleByte n ((s.rx.get p).slots.at n).generation → s.desc l.desc = some m →
    ∃ t, exec (.ack p [b]) s = .next t ∧ Answers s t p (.reply .ok [byteOf l.desc.val]) ∧
      ChangesOnly s t [.link, .rx, .mst, .rpt, .att] ∧ LeaseEnded s t p n .settled ∧
      t.rx.get p = { s.rx.get p with slots := (t.rx.get p).slots } ∧ Settled s t p l.desc m .delivered

/-- A RETURN whose handle acts ends the lease: with attempts left the delivery goes back to the head or the tail of the
queue; with none left it is given up, counted and told. No lease expiry is counted or told. That a count above the
redelivery limit plus one, which no lawful state has, is met as one at it is the model's choice (log 17). -/
def Obligations.ReturnRequeuesOrGivesUp : Prop :=
  ∀ (s : State) (p : Port) (b pos : Byte) (n : SlotId) (l : Lease) (m : Desc), s.takes (.returnLease p [b, pos]) = true →
    s.inRun = true → s.online p = true → ((s.rx.get p).slots.at n).lease = some l →
    b = handleByte n ((s.rx.get p).slots.at n).generation → pos.toNat ≤ 1 → s.desc l.desc = some m →
    let q := (s.rx.get p).queue
    ∃ t, exec (.returnLease p [b, pos]) s = .next t ∧ LeaseEnded s t p n .settled ∧
      (m.attempts.get p ≤ (s.params p).redelivery →
        ChangesOnly s t [.link, .rx, .mst, .att] ∧ Answers s t p (.reply .ok [0, byteOf (q.length + 1)]) ∧
        t.rx.get p = { s.rx.get p with
          slots := (t.rx.get p).slots, queue := if pos = 0 then l.desc :: q else q ++ [l.desc] } ∧
        t.mst = { s.mst with desc := s.mst.desc.put l.desc (some { m with delivery := m.delivery.set p .queued }) } ∧
        RaisedTo s t .rxReady (if q.length + 1 = (s.params p).watermark then [p] else [])) ∧
      ((s.params p).redelivery < m.attempts.get p →
        ChangesOnly s t [.link, .rx, .mst, .rpt, .att] ∧ Answers s t p (.reply .ok [1, byteOf q.length]) ∧
        t.rx.get p = { s.rx.get p with
          slots := (t.rx.get p).slots, deliveriesExpired := counted (s.rx.get p).deliveriesExpired 1 } ∧
        Settled (s.raise .deliveryExpired p) t p l.desc m .expired)

/-- The expiry of a lease is counted and told, and ends the lease as a RETURN does, at the head of the queue, with the
slot's last end EXPIRED. That the happening brings the time base to the deadline is the model's reading (log 7), and
that a count above the redelivery limit plus one is met as one at it is its choice (log 17). -/
def Obligations.LeaseExpiryRequeuesOrGivesUp : Prop :=
  ∀ (s : State) (p : Port) (n : SlotId) (l : Lease) (m : Desc), s.resetLow = false → s.refclk = true →
    ((s.rx.get p).slots.at n).lease = some l → s.desc l.desc = some m →
    let q := (s.rx.get p).queue
    let rx' := { s.rx.get p with leaseExpiries := counted (s.rx.get p).leaseExpiries 1 }
    ∃ t, exec (.leaseExpiry p n) s = .next t ∧ LeaseEnded s t p n .expired ∧
      reached l.deadline t.timer.timeBase = true ∧ t.timer = { s.timer with timeBase := t.timer.timeBase } ∧
      (reached l.deadline s.timer.timeBase = true → t.timer = s.timer) ∧
      (m.attempts.get p ≤ (s.params p).redelivery →
        ChangesOnly s t [.timer, .rx, .mst, .att] ∧
        t.rx.get p = { rx' with slots := (t.rx.get p).slots, queue := l.desc :: q } ∧
        t.mst = { s.mst with desc := s.mst.desc.put l.desc (some { m with delivery := m.delivery.set p .queued }) } ∧
        RaisedTo (s.raise .leaseExpired p) t .rxReady (if q.length + 1 = (s.params p).watermark then [p] else [])) ∧
      ((s.params p).redelivery < m.attempts.get p →
        ChangesOnly s t [.timer, .rx, .mst, .rpt, .att] ∧
        t.rx.get p = { rx' with
          slots := (t.rx.get p).slots, deliveriesExpired := counted (s.rx.get p).deliveriesExpired 1 } ∧
        Settled ((s.raise .leaseExpired p).raise .deliveryExpired p) t p l.desc m .expired)

/-! ## Reports, events and counters -/

/-- R128 to R131, R15: how a message end forms the outcome, posts or loses the report and frees the message. -/
def Obligations.MessageEndReportsAndFrees : Prop :=
  ∀ (s : State) (d : DescId) (m : Desc) (e : Ending), s.desc d = some m →
    let dests := Port.all.filter fun q => m.delivery.get q != .notDest
    let done := dests.filter fun q => m.delivery.get q == .delivered
    let o : MsgOutcome := match e with
      | .stale => .stale
      | .purged => .purged
      | .released => if done = [] then .failed else if done = dests then .complete else .partly
    MessageEnded s (s.endMessage d e) d m o ∧ ChangesOnly s (s.endMessage d e) [.mst, .rpt, .att]

/-- R132: GET_REPORT takes the oldest record of the port's queue and answers it at the offsets of Table 11-19. -/
def Obligations.GetReportTakesOldest : Prop :=
  ∀ (s : State) (p : Port) (payload : List Byte), s.takes (.getReport p payload) = true →
    match firstFailing [(decide (payload = []), .badLength), (s.inRun, .wrongState), (s.online p, .notMember),
      ((s.rpt.get p).queue != [], .empty)] with
    | some st => JustAnswers (.getReport p payload) s p st []
    | none => ∀ r rest, (s.rpt.get p).queue = r :: rest →
        ∃ t b, exec (.getReport p payload) s = .next t ∧ Answers s t p (.reply .ok b) ∧ ChangesOnly s t [.link, .rpt] ∧
          OnlyAt p s.rpt t.rpt ∧ t.rpt.get p = { s.rpt.get p with queue := rest } ∧ b.length = 17 ∧
          byteAt b 0 = r.desc.val ∧ byteAt b 1 = r.lane.val ∧ halfAt b 2 = r.label.toNat ∧
          byteAt b 4 = (match r.outcome with | .complete => 0 | .partly => 1 | .failed => 2 | .stale => 3 | .purged => 4) ∧
          (∀ q, byteAt b (5 + q.toNat) = (r.finalStates.get q).code.toNat) ∧ halfAt b 9 = r.submitCycle.toNat ∧
          (r.stamp = none → byteAt b 11 = 0) ∧
          (∀ st, r.stamp = some st → byteAt b 11 = 1 ∧ halfAt b 12 = st.cycle.toNat ∧ byteAt b 14 = st.slot.toNat) ∧
          byteAt b 15 = r.attempts % 256 ∧ byteAt b 16 = rest.length % 256

/-- R137, R138: a raise latches the kind, or marks it renewed if it was latched; mask and snapshots stay; ATTN_N is low
exactly when a latched kind is enabled. -/
def Obligations.RaiseLatchesOrRenews : Prop :=
  ∀ (s : State) (k : EventKind) (p : Port),
    let a := s.att.get p
    let a' := (s.raise k p).att.get p
    ChangesOnly s (s.raise k p) [.att] ∧ OnlyAt p s.att (s.raise k p).att ∧
    (∀ j, EventSet.has a'.latched j = (EventSet.has a.latched j || j == k)) ∧
    (∀ j, EventSet.has a'.renewed j = (EventSet.has a.renewed j || (j == k && EventSet.has a.latched k))) ∧
    a'.mask = a.mask ∧ a'.snapshot = a.snapshot ∧ a'.nextSnapshot = a.nextSnapshot ∧
    (a'.attnLow = true ↔ ∃ j, EventSet.has a'.latched j = true ∧ EventSet.has a'.mask j = true)

/-- GET_EVENTS takes a snapshot of the latched kinds under the next number and clears the renewed marks; SET_EVENT_MASK
replaces the mask whole and sets the line by it. -/
def Obligations.EventsAreReadAndMasked : Prop :=
  ∀ (s : State) (p : Port) (payload : List Byte),
    let a := s.att.get p
    (s.takes (.getEvents p payload) = true →
      (payload ≠ [] → JustAnswers (.getEvents p payload) s p .badLength []) ∧
      (payload = [] → ∃ t b, exec (.getEvents p payload) s = .next t ∧ Answers s t p (.reply .ok b) ∧
        ChangesOnly s t [.link, .att] ∧ OnlyAt p s.att t.att ∧ b.length = 7 ∧ byteAt b 0 = a.nextSnapshot.toNat ∧
        halfAt b 1 = a.latched.toNat ∧ halfAt b 3 = a.renewed.toNat ∧ halfAt b 5 = a.mask.toNat ∧
        t.att.get p = { a with
          snapshot := some ⟨a.nextSnapshot, a.latched⟩, renewed := 0
          nextSnapshot := if a.nextSnapshot = 255 then 1 else a.nextSnapshot + 1 })) ∧
    (s.takes (.setEventMask p payload) = true →
      match firstFailing [(decide (payload.length = 2), .badLength), (decide (byteAt payload 1 < 16), .badArgument)] with
      | some st => JustAnswers (.setEventMask p payload) s p st []
      | none => ∃ t m, exec (.setEventMask p payload) s = .next t ∧ Answers s t p (.reply .ok payload) ∧
          ChangesOnly s t [.link, .att] ∧ OnlyAt p s.att t.att ∧ BitVec.toNat m = halfAt payload 0 ∧
          t.att.get p = { a with mask := m, attnLow := (t.att.get p).attnLow } ∧
          ((t.att.get p).attnLow = true ↔ ∃ j, EventSet.has a.latched j = true ∧ EventSet.has m j = true))

/-- R141: CLEAR_EVENTS with the number of the snapshot held clears its kinds that were not raised again, and consumes
it; any other number is STALE_SNAPSHOT and changes nothing. -/
def Obligations.ClearEventsConsumesSnapshot : Prop :=
  ∀ (s : State) (p : Port) (payload : List Byte), s.takes (.clearEvents p payload) = true →
    let a := s.att.get p
    (payload.length ≠ 1 → JustAnswers (.clearEvents p payload) s p .badLength []) ∧
    (payload.length = 1 → a.snapshot = none → JustAnswers (.clearEvents p payload) s p .staleSnapshot []) ∧
    ∀ sn, payload.length = 1 → a.snapshot = some sn →
      (payload ≠ [sn.number] → JustAnswers (.clearEvents p payload) s p .staleSnapshot [sn.number]) ∧
      (payload = [sn.number] → ∃ t b, exec (.clearEvents p payload) s = .next t ∧ Answers s t p (.reply .ok b) ∧
        ChangesOnly s t [.link, .att] ∧ OnlyAt p s.att t.att ∧
        (∀ j, EventSet.has (t.att.get p).latched j =
          (EventSet.has a.latched j && !(EventSet.has sn.kinds j && !EventSet.has a.renewed j))) ∧
        (t.att.get p).snapshot = none ∧ (t.att.get p).renewed = a.renewed ∧ (t.att.get p).mask = a.mask ∧
        (t.att.get p).nextSnapshot = a.nextSnapshot ∧
        ((t.att.get p).attnLow = true ↔ ∃ j, EventSet.has (t.att.get p).latched j = true ∧ EventSet.has a.mask j = true) ∧
        b.length = 4 ∧ halfAt b 0 = (a.latched &&& ~~~ (t.att.get p).latched).toNat ∧
        halfAt b 2 = (t.att.get p).latched.toNat)

/-- R144: READ_COUNTERS answers the ten counters of any port; CLEAR zeroes the sender's own after they are read, and is
refused for another port's. -/
def Obligations.ReadCountersReadsAndClears : Prop :=
  ∀ (s : State) (p q : Port) (payload : List Byte), s.takes (.readCounters p payload) = true →
    (byteAt payload 0 < 4 → byteAt payload 0 = q.toNat) →
    match firstFailing [(decide (payload.length = 2), .badLength),
      (decide (byteAt payload 0 < 4 ∧ byteAt payload 1 ≤ 1), .badArgument),
      (byteAt payload 1 == 0 || q == p, .notOwner)] with
    | some st => JustAnswers (.readCounters p payload) s p st []
    | none => ∃ t b, exec (.readCounters p payload) s = .next t ∧
        (t.link.get p).answer = some ⟨.reply .ok b, s.inRun⟩ ∧ b.length = 21 ∧ byteAt b 0 = q.toNat ∧
        halfAt b 1 = (s.link.get q).crcErrors.toNat ∧ halfAt b 3 = (s.link.get q).abortedRequests.toNat ∧
        halfAt b 5 = (s.link.get q).replays.toNat ∧ halfAt b 7 = (s.mst.refusals.get q).descriptor.toNat ∧
        halfAt b 9 = (s.mst.refusals.get q).quota.toNat ∧ halfAt b 11 = (s.mst.refusals.get q).pool.toNat ∧
        halfAt b 13 = (s.rx.get q).rxMissed.toNat ∧ halfAt b 15 = (s.rx.get q).leaseExpiries.toNat ∧
        halfAt b 17 = (s.rx.get q).deliveriesExpired.toNat ∧ halfAt b 19 = (s.rpt.get q).lost.toNat ∧
        (byteAt payload 1 = 0 → ChangesOnly s t [.link] ∧ Answers s t p (.reply .ok b)) ∧
        (byteAt payload 1 = 1 → ChangesOnly s t [.link, .mst, .rx, .rpt] ∧ OnlyAt p s.link t.link ∧
          t.link.get p = { s.link.get p with
            answer := (t.link.get p).answer, crcErrors := 0, abortedRequests := 0, replays := 0 } ∧
          t.mst = { s.mst with refusals := s.mst.refusals.set p ⟨0, 0, 0⟩ } ∧
          t.rx = s.rx.set p { s.rx.get p with rxMissed := 0, leaseExpiries := 0, deliveriesExpired := 0 } ∧
          t.rpt = s.rpt.set p { s.rpt.get p with lost := 0 })

/-! ## Calendar Store -/

/-- READ_ENTRY answers one entry of the bank its selector names, READ_HEADER both headers; neither changes anything. -/
def Obligations.BanksAreRead : Prop :=
  ∀ (s : State) (p : Port) (payload : List Byte),
    (s.takes (.readEntry p payload) = true →
      match firstFailing [(decide (payload.length = 2), .badLength), (decide (byteAt payload 0 ≤ 1), .badArgument)] with
      | some st => JustAnswers (.readEntry p payload) s p st []
      | none => ∃ b bk, JustAnswers (.readEntry p payload) s p .ok b ∧ b.length = 5 ∧
          bk = (if byteAt payload 0 = 0 then s.cal.active else s.cal.active.other) ∧
          byteAt b 0 = (if bk = .a then 0 else 1) ∧
          ∀ i : EntryId, i.val = byteAt payload 1 →
            let e := (s.cal.bank bk).entries.at i
            byteAt b 2 = (match e.owner with | none => 4 | some q => q.toNat) ∧
            (e.release = none → byteAt b 1 = 0 ∧ byteAt b 3 = 0 ∧ byteAt b 4 = 0) ∧
            ∀ r, e.release = some r → byteAt b 1 = 1 ∧ byteAt b 3 = r.lane.val ∧ byteAt b 4 = r.burst % 256) ∧
    (s.takes (.readHeader p payload) = true →
      (payload ≠ [] → JustAnswers (.readHeader p payload) s p .badLength []) ∧
      (payload = [] → ∃ b, JustAnswers (.readHeader p payload) s p .ok b ∧ b.length = 9 ∧
        byteAt b 0 = (if s.cal.active = .a then 0 else 1) ∧ halfAt b 1 = s.cal.activeBank.header.slots % 65536 ∧
        halfAt b 3 = s.cal.activeBank.header.length % 65536 ∧ halfAt b 5 = s.cal.shadow.header.slots % 65536 ∧
        halfAt b 7 = s.cal.shadow.header.length % 65536))

/-- CLAIM gives an unowned shadow entry to the port, leaves its own, and is TAKEN for another port's. R51: CLEAR_ENTRY
makes the port's own shadow entry EMPTY and keeps it owned. R52: DISOWN makes it EMPTY and unowned. No other entry, and
nothing of the active bank, changes. -/
def Obligations.EntriesAreClaimedClearedDisowned : Prop :=
  (∀ (s : State) (p : Port) (b : List Byte), s.takes (.claim p b) = true →
    let e := s.shadowNo (byteAt b 0)
    match firstFailing [(decide (b.length = 1), .badLength), (s.inRun, .wrongState), (s.online p, .notMember),
      (s.plan.proposal.isNone, .frozen), (e.owner == none || e.owner == some p, .taken)] with
    | some st => JustAnswers (.claim p b) s p st []
    | none =>
      (e.owner = some p → JustAnswers (.claim p b) s p .ok []) ∧
      (e.owner = none → ∃ t i, exec (.claim p b) s = .next t ∧ Answers s t p (.reply .ok []) ∧
        ChangesOnly s t [.link, .cal] ∧ i.val = byteAt b 0 ∧ t.cal.active = s.cal.active ∧
        t.cal.activeBank = s.cal.activeBank ∧ t.cal.shadow.header = s.cal.shadow.header ∧
        OnlyAtIndex i s.cal.shadow.entries t.cal.shadow.entries ∧ t.shadowEntry i = ⟨none, some p⟩)) ∧
  ∀ (s : State) (p : Port) (b : List Byte) (i : Instr) (kept : Option Port), s.takes i = true →
    (i = .clearEntry p b ∧ kept = some p) ∨ (i = .disown p b ∧ kept = none) →
    match firstFailing [(decide (b.length = 1), .badLength), (s.inRun, .wrongState), (s.online p, .notMember),
      (s.plan.proposal.isNone, .frozen), ((s.shadowNo (byteAt b 0)).owner == some p, .notOwner)] with
    | some st => JustAnswers i s p st []
    | none => ∃ t j, exec i s = .next t ∧ Answers s t p (.reply .ok []) ∧ ChangesOnly s t [.link, .cal] ∧
        j.val = byteAt b 0 ∧ t.cal.active = s.cal.active ∧ t.cal.activeBank = s.cal.activeBank ∧
        t.cal.shadow.header = s.cal.shadow.header ∧ OnlyAtIndex j s.cal.shadow.entries t.cal.shadow.entries ∧
        t.shadowEntry j = ⟨none, kept⟩

/-- WRITE_ENTRY makes its checks in order and makes the port's own shadow entry RELEASE with the lane and burst given. -/
def Obligations.WriteEntryChecksThenWrites : Prop :=
  ∀ (s : State) (p : Port) (b : List Byte), s.takes (.writeEntry p b) = true →
    let e := s.shadowNo (byteAt b 0)
    let ln := s.laneNo (byteAt b 1)
    match firstFailing [(decide (b.length = 3), .badLength), (s.inRun, .wrongState), (s.online p, .notMember),
      (decide (byteAt b 1 < 32 ∧ 1 ≤ byteAt b 2 ∧ byteAt b 2 ≤ 4), .badArgument), (s.plan.proposal.isNone, .frozen),
      (e.owner == some p, .notOwner), (ln.state != .closed, .laneState), (ln.owner == some p, .notOwner),
      (ln.state == .opened, .laneState)] with
    | some st => JustAnswers (.writeEntry p b) s p st []
    | none => ∃ t i l, exec (.writeEntry p b) s = .next t ∧ Answers s t p (.reply .ok []) ∧
        ChangesOnly s t [.link, .cal] ∧ i.val = byteAt b 0 ∧ l.val = byteAt b 1 ∧ t.cal.active = s.cal.active ∧
        t.cal.activeBank = s.cal.activeBank ∧ t.cal.shadow.header = s.cal.shadow.header ∧
        OnlyAtIndex i s.cal.shadow.entries t.cal.shadow.entries ∧
        t.shadowEntry i = ⟨some ⟨l, byteAt b 2⟩, some p⟩

/-- SET_FRAME writes the shadow header in both exchange states, with the checks of each; no entry and nothing of the
active bank or the timer changes, and of the Membership Controller at most the READY marks. -/
def Obligations.SetFrameWritesShadowHeader : Prop :=
  ∀ (s : State) (p : Port) (b : List Byte), s.takes (.setFrame p b) = true →
    match firstFailing [(decide (b.length = 4), .badLength), (!s.inRun || s.online p, .notMember),
      (decide (4 ≤ halfAt b 0 ∧ halfAt b 0 ≤ 256 ∧ 50 ≤ halfAt b 2), .badArgument),
      (!s.inRun || s.plan.proposal.isNone, .frozen)] with
    | some st => JustAnswers (.setFrame p b) s p st []
    | none => ∃ t, exec (.setFrame p b) s = .next t ∧ Answers s t p (.reply .ok []) ∧
        ChangesOnly s t [.link, .cal, .mbc, .att] ∧ t.cal.active = s.cal.active ∧ t.cal.activeBank = s.cal.activeBank ∧
        t.cal.shadow = { s.cal.shadow with header := ⟨halfAt b 0, halfAt b 2⟩ } ∧
        t.mbc = { s.mbc with ports := t.mbc.ports } ∧ (s.inRun = true → t.mbc = s.mbc ∧ t.att = s.att)

/-! ## Plan Coordinator -/

/-- PROPOSE makes its checks in order; a valid shadow is proposed to every other ONLINE port under the next number, and
each of those is told; with no voters it is ACCEPTED at once. -/
def Obligations.ProposeOpensProposal : Prop :=
  ∀ (s : State) (p : Port) (b : List Byte), s.takes (.propose p b) = true →
    let voters := Port.all.filter fun q => q != p && s.online q
    match firstFailing [(decide (b = []), .badLength), (s.inRun, .wrongState), (s.online p, .notMember),
      (s.plan.proposal.isNone, .planBusy)] with
    | some st => JustAnswers (.propose p b) s p st (if st = .planBusy then s.plan.summary else [])
    | none =>
      (∀ i, s.BadAt i → (∀ j, j < i → ¬ s.BadAt j) → JustAnswers (.propose p b) s p .planInvalid [byteOf i.val]) ∧
      ((∀ i, ¬ s.BadAt i) → ∃ t set a, exec (.propose p b) s = .next t ∧ Answers s t p (.reply .ok a) ∧
        ChangesOnly s t [.link, .plan, .att] ∧ (∀ q, set.get q = true ↔ q ∈ voters) ∧
        t.plan = { s.plan with
          proposal := some ⟨if voters = [] then .accepted else .opened, s.plan.nextNumber, p, set, ⟨false, false, false, false⟩,
            s.mbc.deadline⟩
          nextNumber := if s.plan.nextNumber = 255 then 1 else s.plan.nextNumber + 1 } ∧
        RaisedTo s t .planOpened voters ∧ a.length = 4 ∧ byteAt a 0 = s.plan.nextNumber.toNat ∧
        (∀ q, byteAt a 1 / 2 ^ q.toNat % 2 = (set.get q).toNat) ∧ byteAt a 2 = s.mbc.deadline % 256 ∧
        byteAt a 3 = if voters = [] then 2 else 1)

/-- R65, R66: VOTE makes its checks in order, each answered with the summary; a YES is recorded and the last one accepts
the proposal; a NO rejects it. -/
def Obligations.VoteIsCast : Prop :=
  ∀ (s : State) (p : Port) (b : List Byte), s.takes (.vote p b) = true →
    let r? := s.plan.proposal
    match firstFailing [(decide (b.length = 2), .badLength), (s.inRun, .wrongState), (s.online p, .notMember),
      (decide (byteAt b 1 = 1 ∨ byteAt b 1 = 2), .badArgument), (r?.isSome, .noProposal),
      (r?.any fun r => r.number.toNat == byteAt b 0, .staleNumber), (r?.any fun r => r.voters.get p, .notVoter),
      (r?.any fun r => !r.yes.get p || byteAt b 1 == 1, .voteConflict)] with
    | some st => JustAnswers (.vote p b) s p st s.plan.summary
    | none => ∀ r, r? = some r →
        (r.yes.get p = true → JustAnswers (.vote p b) s p .ok s.plan.summary) ∧
        (r.yes.get p = false → ∃ t, exec (.vote p b) s = .next t ∧ Answers s t p (.reply .ok t.plan.summary) ∧
          ChangesOnly s t [.link, .plan, .att] ∧
          (byteAt b 1 = 1 → t.att = s.att ∧ t.plan = { s.plan with proposal := some { r with
            yes := r.yes.set p true
            state := if Port.all.all (fun q => !r.voters.get q || q == p || r.yes.get q) then .accepted else r.state } }) ∧
          (byteAt b 1 = 2 → Decided s t r (.rejected p)))

/-- R68: WITHDRAW makes its checks in order, each answered with the summary; the proposer's withdrawal decides the
proposal and the banks keep their roles. -/
def Obligations.WithdrawDecidesProposal : Prop :=
  ∀ (s : State) (p : Port) (b : List Byte), s.takes (.withdraw p b) = true →
    let r? := s.plan.proposal
    match firstFailing [(decide (b.length = 1), .badLength), (s.inRun, .wrongState), (s.online p, .notMember),
      (r?.isSome, .noProposal), (r?.any fun r => r.number.toNat == byteAt b 0, .staleNumber),
      (r?.any fun r => r.proposer == p, .notOwner)] with
    | some st => JustAnswers (.withdraw p b) s p st s.plan.summary
    | none => ∀ r, r? = some r → ∃ t, exec (.withdraw p b) s = .next t ∧ Answers s t p (.reply .ok t.plan.summary) ∧
        ChangesOnly s t [.link, .plan, .att] ∧ Decided s t r .withdrawnByProposer

/-- R77: PLAN_STATUS answers the whole state of the Plan Coordinator at the offsets of Table 11-20, from a port in any
state, and changes nothing; the plan summary is bytes 0, 1 and 6 to 9 of it. -/
def Obligations.PlanStatusReportsPlan : Prop :=
  ∀ (s : State) (p : Port) (payload : List Byte), s.takes (.planStatus p payload) = true →
    match firstFailing [(decide (payload = []), .badLength), (s.inRun, .wrongState)] with
    | some st => JustAnswers (.planStatus p payload) s p st []
    | none => ∃ b, JustAnswers (.planStatus p payload) s p .ok b ∧ b.length = 12 ∧
        s.plan.summary.map BitVec.toNat = [byteAt b 0, byteAt b 1, byteAt b 6, byteAt b 7, byteAt b 8, byteAt b 9] ∧
        (s.plan.proposal = none → ∀ j, j < 6 → byteAt b j = 0) ∧
        (∀ r, s.plan.proposal = some r → byteAt b 0 = (if r.state = .opened then 1 else 2) ∧
          byteAt b 1 = r.number.toNat ∧ byteAt b 2 = r.proposer.toNat ∧
          (∀ q, byteAt b 3 / 2 ^ q.toNat % 2 = (r.voters.get q).toNat ∧ byteAt b 4 / 2 ^ q.toNat % 2 = (r.yes.get q).toNat) ∧
          byteAt b 5 = r.remaining % 256) ∧
        (s.plan.last = none → ∀ j, 6 ≤ j → j < 10 → byteAt b j = 0) ∧
        (∀ o, s.plan.last = some o → byteAt b 6 = 1 ∧ byteAt b 7 = o.number.toNat ∧
          (byteAt b 8, byteAt b 9) = match o.outcome with
            | .applied => (0, 0)
            | .rejected q => (1, q.toNat)
            | .lapsedDeadline => (2, 0)
            | .lapsedMemberLeft => (2, 1)
            | .withdrawnByProposer => (3, 0)
            | .withdrawnProposerLeft => (3, 1)) ∧
        byteAt b 10 = s.plan.nextNumber.toNat ∧ byteAt b 11 = s.mbc.deadline % 256

/-! ## Slots, cycles and releases -/

/-- A slot start moves the index on within its cycle, or begins the next cycle: SYNC_OUT rises, the Plan Coordinator
applies, counts down or lapses the proposal, and the active bank that results gives the header. The pulse ends 8 µs on.
That the happening itself brings the time base to the moment it is due is the model's reading (log 7). -/
def Obligations.SlotStartAdvancesTimer : Prop :=
  ∀ (s : State) (due : Time), s.resetLow = false → s.refclk = true →
    (s.timer.state = .running → s.timer.nextSlot = some due → ∃ t, exec .slotStart s = .next t ∧
      ChangesOnly s t [.timer, .plan, .cal, .att, .lanes, .mst, .rx, .rpt] ∧ t.timer.state = .running ∧
      reached due t.timer.timeBase = true ∧ (reached due s.timer.timeBase = true → t.timer.timeBase = s.timer.timeBase) ∧
      t.timer.nextSlot = some (due + BitVec.ofNat 32 t.timer.header.length) ∧
      (s.timer.slot.toNat + 1 < s.timer.header.slots → ChangesOnly s t [.timer, .att, .lanes, .mst, .rx, .rpt] ∧
        t.timer.cycle = s.timer.cycle ∧ t.timer.slot = s.timer.slot + 1 ∧ t.timer.header = s.timer.header ∧
        t.timer.syncOut = s.timer.syncOut ∧ t.timer.syncEnd = s.timer.syncEnd) ∧
      (s.timer.header.slots ≤ s.timer.slot.toNat + 1 →
        t.timer.cycle = s.timer.cycle + 1 ∧ t.timer.slot = 0 ∧ t.timer.header = t.cal.activeBank.header ∧
        t.timer.syncOut = true ∧ t.timer.syncEnd = some (due + 8) ∧
        (s.plan.proposal = none → t.plan = s.plan ∧ t.cal = s.cal) ∧
        ∀ r, s.plan.proposal = some r →
          (r.state = .accepted → t.plan = { s.plan with proposal := none, last := some ⟨r.number, .applied⟩ } ∧
            t.cal.active = s.cal.active.other ∧ t.cal.activeBank = s.cal.shadow ∧ t.cal.shadow = s.cal.shadow) ∧
          (r.state = .opened → t.cal = s.cal) ∧
          (r.state = .opened → 1 < r.remaining →
            t.plan = { s.plan with proposal := some { r with remaining := r.remaining - 1 } }) ∧
          (r.state = .opened → r.remaining ≤ 1 →
            t.plan = { s.plan with proposal := none, last := some ⟨r.number, .lapsedDeadline⟩ }) ∧
          ((r.state = .accepted ∨ r.remaining ≤ 1) → ∀ q, (q = r.proposer ∨ r.voters.get q = true) → s.online q = true →
            EventSet.has (t.att.get q).latched .planDecided = true))) ∧
    (s.timer.state = .stopped → exec .slotStart s = .next s) ∧
    (s.timer.syncEnd = some due → ∃ t, exec .syncOutPulseEnd s = .next t ∧ ChangesOnly s t [.timer] ∧
      t.timer = { s.timer with timeBase := t.timer.timeBase, syncOut := false, syncEnd := none } ∧
      reached due t.timer.timeBase = true ∧ (reached due s.timer.timeBase = true → t.timer.timeBase = s.timer.timeBase))

/-- A slot start, within a cycle or at its boundary, begins its slot and then makes the release pass for that slot's
entry in the bank that is active by then: nothing for an EMPTY entry or a CLOSED lane; else, message by message from the
head, stale ones are discarded, up to the burst of others released by the lane's policy, and under HOLD one with an
ONLINE destination full holds the rest; a DRAINING lane left empty closes. Premise: every reference to a descriptor is
accounted for, which every step keeps. -/
def Obligations.ReleasePassFollowsPolicy : Prop :=
  ∀ (s : State) (due : Time), s.resetLow = false → s.refclk = true → s.timer.state = .running →
    s.timer.nextSlot = some due → s.ReferencesLawful →
    ∃ u t, exec .slotStart s = .next t ∧ SlotBegins s u due ∧
      let stamp : Stamp := ⟨u.timer.cycle, u.timer.slot⟩
      ∀ i : EntryId, i.val = u.timer.slot.toNat →
        let e := (u.cal.activeBank.entries.at i).release
        (e = none → t = u) ∧
        ∀ l b, e = some ⟨l, b⟩ → ((u.lane l).state = .closed → t = u) ∧
          ∀ st, (u.lane l).state ≠ .closed → (u.lane l).settings = some st →
            ∃ v, Pass l st stamp b false u v ∧ PassEnds v t l st.owner

/-! ## The laws that every step keeps -/

/-- Every step keeps the setup parameters lawful, and the exchange state and the port states in accord. -/
def Obligations.StepKeepsMembershipLawful : Prop :=
  (∀ s t : State, s.ParamsLawful → step s = .next t → t.ParamsLawful) ∧
  ∀ s t : State, s.MembershipLawful → step s = .next t → t.MembershipLawful

/-- Every step keeps ATTN_N at its level and the snapshot numbers in 1 to 255. -/
def Obligations.StepKeepsAttentionLawful : Prop :=
  ∀ s t : State, s.AttentionLawful → step s = .next t → t.AttentionLawful

/-- Every step keeps each buffer in one place, the held counts, and the pool's canonical form; and, where SETUP holds no
message, it keeps every held count within its ceiling and the reserves covered by the free list. -/
def Obligations.StepKeepsStoreLawful : Prop :=
  (∀ s t : State, s.StoreLawful → step s = .next t → t.StoreLawful) ∧
  ∀ s t : State, s.StoreLawful → s.SetupIsEmpty → s.QuotaLawful → step s = .next t → t.QuotaLawful

/-- Every step keeps the entries of both banks lawful. -/
def Obligations.StepKeepsEntriesLawful : Prop :=
  ∀ s t : State, s.EntriesLawful → step s = .next t → t.EntriesLawful

/-- Every step keeps a standing proposal lawful and the shadow it froze valid. -/
def Obligations.StepKeepsPlanLawful : Prop :=
  ∀ s t : State, s.PlanLawful → step s = .next t → t.PlanLawful

/-- Every step keeps the timer in accord with the exchange state and the banks. -/
def Obligations.StepKeepsTimerLawful : Prop :=
  ∀ s t : State, s.TimerLawful → step s = .next t → t.TimerLawful

/-- Every step keeps the lanes lawful. -/
def Obligations.StepKeepsLanesLawful : Prop :=
  ∀ s t : State, s.LanesLawful → step s = .next t → t.LanesLawful

/-- Every step keeps every port's receive state within its bounds, where the exchange and port states are in accord. -/
def Obligations.StepKeepsReceiveLawful : Prop :=
  ∀ s t : State, s.MembershipLawful → s.ReceiveLawful → step s = .next t → t.ReceiveLawful

/-- Every step keeps every reference to a descriptor accounted for; and, where SETUP holds no message, it keeps every
attempt count within the redelivery limit. -/
def Obligations.StepKeepsReferencesLawful : Prop :=
  (∀ s t : State, s.ReferencesLawful → step s = .next t → t.ReferencesLawful) ∧
  ∀ s t : State, s.ReferencesLawful → s.SetupIsEmpty → s.AttemptsLawful → step s = .next t → t.AttemptsLawful

/-- Every step keeps each link lawful. -/
def Obligations.StepKeepsLinksLawful : Prop :=
  ∀ s t : State, (∀ p, s.LinkLawful p) → step s = .next t → ∀ p, t.LinkLawful p

/-- The state after reset meets every law. -/
def Obligations.ResetIsLawful : Prop := State.reset.Lawful

/-- R19: a lawful SETUP holds no message: every descriptor is FREE, every buffer free, every held count 0. -/
def Obligations.LawfulSetupHoldsNoMessage : Prop :=
  ∀ s : State, s.Lawful → s.inRun = false →
    (∀ d, s.desc d = none) ∧ s.mst.free.length = 512 ∧ ∀ p, s.mst.held.get p = 0

end Statements
end

