-- ==== Sys2Proof/Laws/State.lean ====
section
/-! SUPPORT. Reading a table after a write to it, and one lemma per field per update of the state. -/

namespace Sys2Proof

/-! ## Tables -/

namespace PerPort

variable {α : Type}

@[simp] theorem get_set (t : PerPort α) (p q : Port) (a : α) : (t.set p a).get q = if q = p then a else t.get q := by
  cases p <;> cases q <;> rfl

@[simp] theorem get_modify (t : PerPort α) (p q : Port) (f : α → α) :
    (t.modify p f).get q = if q = p then f (t.get q) else t.get q := by
  cases p <;> cases q <;> rfl

@[simp] theorem get_fill (a : α) (p : Port) : (PerPort.fill a).get p = a := by cases p <;> rfl

@[simp] theorem get_ofFn (f : Port → α) (p : Port) : (PerPort.ofFn f).get p = f p := by cases p <;> rfl

theorem ext_get {t u : PerPort α} (h : ∀ p, t.get p = u.get p) : t = u := by
  cases t with
  | mk a b c d =>
    cases u with
    | mk a' b' c' d' =>
      have h0 : a = a' := h .p0
      have h1 : b = b' := h .p1
      have h2 : c = c' := h .p2
      have h3 : d = d' := h .p3
      rw [h0, h1, h2, h3]

@[simp] theorem set_get (t : PerPort α) (p : Port) : t.set p (t.get p) = t := by cases p <;> rfl

end PerPort

@[simp] theorem Port.mem_all (p : Port) : p ∈ Port.all := by cases p <;> decide

theorem Port.nodup_all : Port.all.Nodup := by decide

@[simp] theorem PortSet.mem_toList (t : PortSet) (p : Port) : p ∈ PortSet.toList t ↔ t.get p = true := by
  simp [PortSet.toList]

namespace Tbl

variable {n : Nat} {α : Type}

@[simp] theorem at_put (t : Tbl n α) (i j : Fin n) (a : α) : (t.put i a).at j = if j = i then a else t.at j := by
  rcases i with ⟨i, hi⟩
  rcases j with ⟨j, hj⟩
  simp only [Tbl.at, Tbl.put, Vector.get_eq_getElem, Vector.getElem_set, Fin.mk.injEq]
  by_cases h : i = j
  · simp [h]
  · simp [h, Ne.symm h]

@[simp] theorem at_fill (a : α) (i : Fin n) : (Tbl.fill n a).at i = a := by simp [Tbl.at, Tbl.fill, Vector.get_eq_getElem]

@[simp] theorem at_map {β : Type} (t : Tbl n α) (f : α → β) (i : Fin n) : Tbl.at (Vector.map f t) i = f (t.at i) := by
  simp [Tbl.at, Vector.get_eq_getElem]

theorem ext_at {t u : Tbl n α} (h : ∀ i, t.at i = u.at i) : t = u := by
  apply Vector.ext
  intro i hi
  have := h ⟨i, hi⟩
  simpa [Tbl.at, Vector.get_eq_getElem] using this

theorem mem_toList_iff (t : Tbl n α) (a : α) : a ∈ t.toList ↔ ∃ i, t.at i = a := by
  rw [Vector.mem_toList_iff, Vector.mem_iff_getElem]
  constructor
  · rintro ⟨i, hi, h⟩
    exact ⟨⟨i, hi⟩, by simpa [Tbl.at, Vector.get_eq_getElem] using h⟩
  · rintro ⟨i, h⟩
    exact ⟨i.val, i.isLt, by simpa [Tbl.at, Vector.get_eq_getElem] using h⟩

end Tbl

end Sys2Proof

namespace Sys2Proof.Machine

open Sys2Proof

/-! ## Updates of the state, field by field -/

variable (s : State)

@[simp] theorem State.setDesc_resetLow (d : DescId) (m : Option Desc) : (s.setDesc d m).resetLow = s.resetLow := rfl
@[simp] theorem State.setDesc_refclk (d : DescId) (m : Option Desc) : (s.setDesc d m).refclk = s.refclk := rfl
@[simp] theorem State.setDesc_mbc (d : DescId) (m : Option Desc) : (s.setDesc d m).mbc = s.mbc := rfl
@[simp] theorem State.setDesc_mst (d : DescId) (m : Option Desc) : (s.setDesc d m).mst = { s.mst with desc := s.mst.desc.put d m } := rfl
@[simp] theorem State.setDesc_lanes (d : DescId) (m : Option Desc) : (s.setDesc d m).lanes = s.lanes := rfl
@[simp] theorem State.setDesc_cal (d : DescId) (m : Option Desc) : (s.setDesc d m).cal = s.cal := rfl
@[simp] theorem State.setDesc_plan (d : DescId) (m : Option Desc) : (s.setDesc d m).plan = s.plan := rfl
@[simp] theorem State.setDesc_timer (d : DescId) (m : Option Desc) : (s.setDesc d m).timer = s.timer := rfl
@[simp] theorem State.setDesc_rx (d : DescId) (m : Option Desc) : (s.setDesc d m).rx = s.rx := rfl
@[simp] theorem State.setDesc_rpt (d : DescId) (m : Option Desc) : (s.setDesc d m).rpt = s.rpt := rfl
@[simp] theorem State.setDesc_att (d : DescId) (m : Option Desc) : (s.setDesc d m).att = s.att := rfl
@[simp] theorem State.setDesc_link (d : DescId) (m : Option Desc) : (s.setDesc d m).link = s.link := rfl
@[simp] theorem State.setDesc_pending (d : DescId) (m : Option Desc) : (s.setDesc d m).pending = s.pending := rfl
@[simp] theorem State.setDesc_choices (d : DescId) (m : Option Desc) : (s.setDesc d m).choices = s.choices := rfl

@[simp] theorem State.modLane_resetLow (l : LaneId) (f : Lane → Lane) : (s.modLane l f).resetLow = s.resetLow := rfl
@[simp] theorem State.modLane_refclk (l : LaneId) (f : Lane → Lane) : (s.modLane l f).refclk = s.refclk := rfl
@[simp] theorem State.modLane_mbc (l : LaneId) (f : Lane → Lane) : (s.modLane l f).mbc = s.mbc := rfl
@[simp] theorem State.modLane_mst (l : LaneId) (f : Lane → Lane) : (s.modLane l f).mst = s.mst := rfl
@[simp] theorem State.modLane_lanes (l : LaneId) (f : Lane → Lane) : (s.modLane l f).lanes = s.lanes.put l (f (s.lanes.at l)) := rfl
@[simp] theorem State.modLane_cal (l : LaneId) (f : Lane → Lane) : (s.modLane l f).cal = s.cal := rfl
@[simp] theorem State.modLane_plan (l : LaneId) (f : Lane → Lane) : (s.modLane l f).plan = s.plan := rfl
@[simp] theorem State.modLane_timer (l : LaneId) (f : Lane → Lane) : (s.modLane l f).timer = s.timer := rfl
@[simp] theorem State.modLane_rx (l : LaneId) (f : Lane → Lane) : (s.modLane l f).rx = s.rx := rfl
@[simp] theorem State.modLane_rpt (l : LaneId) (f : Lane → Lane) : (s.modLane l f).rpt = s.rpt := rfl
@[simp] theorem State.modLane_att (l : LaneId) (f : Lane → Lane) : (s.modLane l f).att = s.att := rfl
@[simp] theorem State.modLane_link (l : LaneId) (f : Lane → Lane) : (s.modLane l f).link = s.link := rfl
@[simp] theorem State.modLane_pending (l : LaneId) (f : Lane → Lane) : (s.modLane l f).pending = s.pending := rfl
@[simp] theorem State.modLane_choices (l : LaneId) (f : Lane → Lane) : (s.modLane l f).choices = s.choices := rfl

@[simp] theorem State.modRx_resetLow (p : Port) (f : Rx → Rx) : (s.modRx p f).resetLow = s.resetLow := rfl
@[simp] theorem State.modRx_refclk (p : Port) (f : Rx → Rx) : (s.modRx p f).refclk = s.refclk := rfl
@[simp] theorem State.modRx_mbc (p : Port) (f : Rx → Rx) : (s.modRx p f).mbc = s.mbc := rfl
@[simp] theorem State.modRx_mst (p : Port) (f : Rx → Rx) : (s.modRx p f).mst = s.mst := rfl
@[simp] theorem State.modRx_lanes (p : Port) (f : Rx → Rx) : (s.modRx p f).lanes = s.lanes := rfl
@[simp] theorem State.modRx_cal (p : Port) (f : Rx → Rx) : (s.modRx p f).cal = s.cal := rfl
@[simp] theorem State.modRx_plan (p : Port) (f : Rx → Rx) : (s.modRx p f).plan = s.plan := rfl
@[simp] theorem State.modRx_timer (p : Port) (f : Rx → Rx) : (s.modRx p f).timer = s.timer := rfl
@[simp] theorem State.modRx_rx (p : Port) (f : Rx → Rx) : (s.modRx p f).rx = s.rx.modify p f := rfl
@[simp] theorem State.modRx_rpt (p : Port) (f : Rx → Rx) : (s.modRx p f).rpt = s.rpt := rfl
@[simp] theorem State.modRx_att (p : Port) (f : Rx → Rx) : (s.modRx p f).att = s.att := rfl
@[simp] theorem State.modRx_link (p : Port) (f : Rx → Rx) : (s.modRx p f).link = s.link := rfl
@[simp] theorem State.modRx_pending (p : Port) (f : Rx → Rx) : (s.modRx p f).pending = s.pending := rfl
@[simp] theorem State.modRx_choices (p : Port) (f : Rx → Rx) : (s.modRx p f).choices = s.choices := rfl

@[simp] theorem State.modRpt_resetLow (p : Port) (f : Rpt → Rpt) : (s.modRpt p f).resetLow = s.resetLow := rfl
@[simp] theorem State.modRpt_refclk (p : Port) (f : Rpt → Rpt) : (s.modRpt p f).refclk = s.refclk := rfl
@[simp] theorem State.modRpt_mbc (p : Port) (f : Rpt → Rpt) : (s.modRpt p f).mbc = s.mbc := rfl
@[simp] theorem State.modRpt_mst (p : Port) (f : Rpt → Rpt) : (s.modRpt p f).mst = s.mst := rfl
@[simp] theorem State.modRpt_lanes (p : Port) (f : Rpt → Rpt) : (s.modRpt p f).lanes = s.lanes := rfl
@[simp] theorem State.modRpt_cal (p : Port) (f : Rpt → Rpt) : (s.modRpt p f).cal = s.cal := rfl
@[simp] theorem State.modRpt_plan (p : Port) (f : Rpt → Rpt) : (s.modRpt p f).plan = s.plan := rfl
@[simp] theorem State.modRpt_timer (p : Port) (f : Rpt → Rpt) : (s.modRpt p f).timer = s.timer := rfl
@[simp] theorem State.modRpt_rx (p : Port) (f : Rpt → Rpt) : (s.modRpt p f).rx = s.rx := rfl
@[simp] theorem State.modRpt_rpt (p : Port) (f : Rpt → Rpt) : (s.modRpt p f).rpt = s.rpt.modify p f := rfl
@[simp] theorem State.modRpt_att (p : Port) (f : Rpt → Rpt) : (s.modRpt p f).att = s.att := rfl
@[simp] theorem State.modRpt_link (p : Port) (f : Rpt → Rpt) : (s.modRpt p f).link = s.link := rfl
@[simp] theorem State.modRpt_pending (p : Port) (f : Rpt → Rpt) : (s.modRpt p f).pending = s.pending := rfl
@[simp] theorem State.modRpt_choices (p : Port) (f : Rpt → Rpt) : (s.modRpt p f).choices = s.choices := rfl

@[simp] theorem State.modAtt_resetLow (p : Port) (f : Att → Att) : (s.modAtt p f).resetLow = s.resetLow := rfl
@[simp] theorem State.modAtt_refclk (p : Port) (f : Att → Att) : (s.modAtt p f).refclk = s.refclk := rfl
@[simp] theorem State.modAtt_mbc (p : Port) (f : Att → Att) : (s.modAtt p f).mbc = s.mbc := rfl
@[simp] theorem State.modAtt_mst (p : Port) (f : Att → Att) : (s.modAtt p f).mst = s.mst := rfl
@[simp] theorem State.modAtt_lanes (p : Port) (f : Att → Att) : (s.modAtt p f).lanes = s.lanes := rfl
@[simp] theorem State.modAtt_cal (p : Port) (f : Att → Att) : (s.modAtt p f).cal = s.cal := rfl
@[simp] theorem State.modAtt_plan (p : Port) (f : Att → Att) : (s.modAtt p f).plan = s.plan := rfl
@[simp] theorem State.modAtt_timer (p : Port) (f : Att → Att) : (s.modAtt p f).timer = s.timer := rfl
@[simp] theorem State.modAtt_rx (p : Port) (f : Att → Att) : (s.modAtt p f).rx = s.rx := rfl
@[simp] theorem State.modAtt_rpt (p : Port) (f : Att → Att) : (s.modAtt p f).rpt = s.rpt := rfl
@[simp] theorem State.modAtt_att (p : Port) (f : Att → Att) : (s.modAtt p f).att = s.att.modify p f := rfl
@[simp] theorem State.modAtt_link (p : Port) (f : Att → Att) : (s.modAtt p f).link = s.link := rfl
@[simp] theorem State.modAtt_pending (p : Port) (f : Att → Att) : (s.modAtt p f).pending = s.pending := rfl
@[simp] theorem State.modAtt_choices (p : Port) (f : Att → Att) : (s.modAtt p f).choices = s.choices := rfl

@[simp] theorem State.modLink_resetLow (p : Port) (f : Link → Link) : (s.modLink p f).resetLow = s.resetLow := rfl
@[simp] theorem State.modLink_refclk (p : Port) (f : Link → Link) : (s.modLink p f).refclk = s.refclk := rfl
@[simp] theorem State.modLink_mbc (p : Port) (f : Link → Link) : (s.modLink p f).mbc = s.mbc := rfl
@[simp] theorem State.modLink_mst (p : Port) (f : Link → Link) : (s.modLink p f).mst = s.mst := rfl
@[simp] theorem State.modLink_lanes (p : Port) (f : Link → Link) : (s.modLink p f).lanes = s.lanes := rfl
@[simp] theorem State.modLink_cal (p : Port) (f : Link → Link) : (s.modLink p f).cal = s.cal := rfl
@[simp] theorem State.modLink_plan (p : Port) (f : Link → Link) : (s.modLink p f).plan = s.plan := rfl
@[simp] theorem State.modLink_timer (p : Port) (f : Link → Link) : (s.modLink p f).timer = s.timer := rfl
@[simp] theorem State.modLink_rx (p : Port) (f : Link → Link) : (s.modLink p f).rx = s.rx := rfl
@[simp] theorem State.modLink_rpt (p : Port) (f : Link → Link) : (s.modLink p f).rpt = s.rpt := rfl
@[simp] theorem State.modLink_att (p : Port) (f : Link → Link) : (s.modLink p f).att = s.att := rfl
@[simp] theorem State.modLink_link (p : Port) (f : Link → Link) : (s.modLink p f).link = s.link.modify p f := rfl
@[simp] theorem State.modLink_pending (p : Port) (f : Link → Link) : (s.modLink p f).pending = s.pending := rfl
@[simp] theorem State.modLink_choices (p : Port) (f : Link → Link) : (s.modLink p f).choices = s.choices := rfl

@[simp] theorem State.modRefusals_resetLow (p : Port) (f : Refusals → Refusals) : (s.modRefusals p f).resetLow = s.resetLow := rfl
@[simp] theorem State.modRefusals_refclk (p : Port) (f : Refusals → Refusals) : (s.modRefusals p f).refclk = s.refclk := rfl
@[simp] theorem State.modRefusals_mbc (p : Port) (f : Refusals → Refusals) : (s.modRefusals p f).mbc = s.mbc := rfl
@[simp] theorem State.modRefusals_mst (p : Port) (f : Refusals → Refusals) : (s.modRefusals p f).mst = { s.mst with refusals := s.mst.refusals.modify p f } := rfl
@[simp] theorem State.modRefusals_lanes (p : Port) (f : Refusals → Refusals) : (s.modRefusals p f).lanes = s.lanes := rfl
@[simp] theorem State.modRefusals_cal (p : Port) (f : Refusals → Refusals) : (s.modRefusals p f).cal = s.cal := rfl
@[simp] theorem State.modRefusals_plan (p : Port) (f : Refusals → Refusals) : (s.modRefusals p f).plan = s.plan := rfl
@[simp] theorem State.modRefusals_timer (p : Port) (f : Refusals → Refusals) : (s.modRefusals p f).timer = s.timer := rfl
@[simp] theorem State.modRefusals_rx (p : Port) (f : Refusals → Refusals) : (s.modRefusals p f).rx = s.rx := rfl
@[simp] theorem State.modRefusals_rpt (p : Port) (f : Refusals → Refusals) : (s.modRefusals p f).rpt = s.rpt := rfl
@[simp] theorem State.modRefusals_att (p : Port) (f : Refusals → Refusals) : (s.modRefusals p f).att = s.att := rfl
@[simp] theorem State.modRefusals_link (p : Port) (f : Refusals → Refusals) : (s.modRefusals p f).link = s.link := rfl
@[simp] theorem State.modRefusals_pending (p : Port) (f : Refusals → Refusals) : (s.modRefusals p f).pending = s.pending := rfl
@[simp] theorem State.modRefusals_choices (p : Port) (f : Refusals → Refusals) : (s.modRefusals p f).choices = s.choices := rfl

@[simp] theorem State.setPort_resetLow (p : Port) (st : PortState) : (s.setPort p st).resetLow = s.resetLow := rfl
@[simp] theorem State.setPort_refclk (p : Port) (st : PortState) : (s.setPort p st).refclk = s.refclk := rfl
@[simp] theorem State.setPort_mbc (p : Port) (st : PortState) : (s.setPort p st).mbc = { s.mbc with ports := s.mbc.ports.set p st } := rfl
@[simp] theorem State.setPort_mst (p : Port) (st : PortState) : (s.setPort p st).mst = s.mst := rfl
@[simp] theorem State.setPort_lanes (p : Port) (st : PortState) : (s.setPort p st).lanes = s.lanes := rfl
@[simp] theorem State.setPort_cal (p : Port) (st : PortState) : (s.setPort p st).cal = s.cal := rfl
@[simp] theorem State.setPort_plan (p : Port) (st : PortState) : (s.setPort p st).plan = s.plan := rfl
@[simp] theorem State.setPort_timer (p : Port) (st : PortState) : (s.setPort p st).timer = s.timer := rfl
@[simp] theorem State.setPort_rx (p : Port) (st : PortState) : (s.setPort p st).rx = s.rx := rfl
@[simp] theorem State.setPort_rpt (p : Port) (st : PortState) : (s.setPort p st).rpt = s.rpt := rfl
@[simp] theorem State.setPort_att (p : Port) (st : PortState) : (s.setPort p st).att = s.att := rfl
@[simp] theorem State.setPort_link (p : Port) (st : PortState) : (s.setPort p st).link = s.link := rfl
@[simp] theorem State.setPort_pending (p : Port) (st : PortState) : (s.setPort p st).pending = s.pending := rfl
@[simp] theorem State.setPort_choices (p : Port) (st : PortState) : (s.setPort p st).choices = s.choices := rfl

@[simp] theorem State.raise_resetLow (k : EventKind) (p : Port) : (s.raise k p).resetLow = s.resetLow := rfl
@[simp] theorem State.raise_refclk (k : EventKind) (p : Port) : (s.raise k p).refclk = s.refclk := rfl
@[simp] theorem State.raise_mbc (k : EventKind) (p : Port) : (s.raise k p).mbc = s.mbc := rfl
@[simp] theorem State.raise_mst (k : EventKind) (p : Port) : (s.raise k p).mst = s.mst := rfl
@[simp] theorem State.raise_lanes (k : EventKind) (p : Port) : (s.raise k p).lanes = s.lanes := rfl
@[simp] theorem State.raise_cal (k : EventKind) (p : Port) : (s.raise k p).cal = s.cal := rfl
@[simp] theorem State.raise_plan (k : EventKind) (p : Port) : (s.raise k p).plan = s.plan := rfl
@[simp] theorem State.raise_timer (k : EventKind) (p : Port) : (s.raise k p).timer = s.timer := rfl
@[simp] theorem State.raise_rx (k : EventKind) (p : Port) : (s.raise k p).rx = s.rx := rfl
@[simp] theorem State.raise_rpt (k : EventKind) (p : Port) : (s.raise k p).rpt = s.rpt := rfl
@[simp] theorem State.raise_att (k : EventKind) (p : Port) : (s.raise k p).att = s.att.modify p (Att.raise k) := rfl
@[simp] theorem State.raise_link (k : EventKind) (p : Port) : (s.raise k p).link = s.link := rfl
@[simp] theorem State.raise_pending (k : EventKind) (p : Port) : (s.raise k p).pending = s.pending := rfl
@[simp] theorem State.raise_choices (k : EventKind) (p : Port) : (s.raise k p).choices = s.choices := rfl

@[simp] theorem State.answer_resetLow (p : Port) (a : Answer) : (s.answer p a).resetLow = s.resetLow := rfl
@[simp] theorem State.answer_refclk (p : Port) (a : Answer) : (s.answer p a).refclk = s.refclk := rfl
@[simp] theorem State.answer_mbc (p : Port) (a : Answer) : (s.answer p a).mbc = s.mbc := rfl
@[simp] theorem State.answer_mst (p : Port) (a : Answer) : (s.answer p a).mst = s.mst := rfl
@[simp] theorem State.answer_lanes (p : Port) (a : Answer) : (s.answer p a).lanes = s.lanes := rfl
@[simp] theorem State.answer_cal (p : Port) (a : Answer) : (s.answer p a).cal = s.cal := rfl
@[simp] theorem State.answer_plan (p : Port) (a : Answer) : (s.answer p a).plan = s.plan := rfl
@[simp] theorem State.answer_timer (p : Port) (a : Answer) : (s.answer p a).timer = s.timer := rfl
@[simp] theorem State.answer_rx (p : Port) (a : Answer) : (s.answer p a).rx = s.rx := rfl
@[simp] theorem State.answer_rpt (p : Port) (a : Answer) : (s.answer p a).rpt = s.rpt := rfl
@[simp] theorem State.answer_att (p : Port) (a : Answer) : (s.answer p a).att = s.att := rfl
@[simp] theorem State.answer_link (p : Port) (a : Answer) : (s.answer p a).link = s.link.modify p fun l => { l with answer := some (s.formed a) } := rfl
@[simp] theorem State.answer_pending (p : Port) (a : Answer) : (s.answer p a).pending = s.pending := rfl
@[simp] theorem State.answer_choices (p : Port) (a : Answer) : (s.answer p a).choices = s.choices := rfl

@[simp] theorem State.freeDesc_resetLow (d : DescId) (m : Desc) : (s.freeDesc d m).resetLow = s.resetLow := rfl
@[simp] theorem State.freeDesc_refclk (d : DescId) (m : Desc) : (s.freeDesc d m).refclk = s.refclk := rfl
@[simp] theorem State.freeDesc_mbc (d : DescId) (m : Desc) : (s.freeDesc d m).mbc = s.mbc := rfl
@[simp] theorem State.freeDesc_mst (d : DescId) (m : Desc) : (s.freeDesc d m).mst = { s.mst with desc := s.mst.desc.put d none, free := s.mst.free ++ m.fragments, held := s.mst.held.modify m.source (· - m.fragments.length) } := rfl
@[simp] theorem State.freeDesc_lanes (d : DescId) (m : Desc) : (s.freeDesc d m).lanes = s.lanes := rfl
@[simp] theorem State.freeDesc_cal (d : DescId) (m : Desc) : (s.freeDesc d m).cal = s.cal := rfl
@[simp] theorem State.freeDesc_plan (d : DescId) (m : Desc) : (s.freeDesc d m).plan = s.plan := rfl
@[simp] theorem State.freeDesc_timer (d : DescId) (m : Desc) : (s.freeDesc d m).timer = s.timer := rfl
@[simp] theorem State.freeDesc_rx (d : DescId) (m : Desc) : (s.freeDesc d m).rx = s.rx := rfl
@[simp] theorem State.freeDesc_rpt (d : DescId) (m : Desc) : (s.freeDesc d m).rpt = s.rpt := rfl
@[simp] theorem State.freeDesc_att (d : DescId) (m : Desc) : (s.freeDesc d m).att = s.att := rfl
@[simp] theorem State.freeDesc_link (d : DescId) (m : Desc) : (s.freeDesc d m).link = s.link := rfl
@[simp] theorem State.freeDesc_pending (d : DescId) (m : Desc) : (s.freeDesc d m).pending = s.pending := rfl
@[simp] theorem State.freeDesc_choices (d : DescId) (m : Desc) : (s.freeDesc d m).choices = s.choices := rfl

@[simp] theorem State.setProposal_resetLow (r : Proposal) : (s.setProposal r).resetLow = s.resetLow := rfl
@[simp] theorem State.setProposal_refclk (r : Proposal) : (s.setProposal r).refclk = s.refclk := rfl
@[simp] theorem State.setProposal_mbc (r : Proposal) : (s.setProposal r).mbc = s.mbc := rfl
@[simp] theorem State.setProposal_mst (r : Proposal) : (s.setProposal r).mst = s.mst := rfl
@[simp] theorem State.setProposal_lanes (r : Proposal) : (s.setProposal r).lanes = s.lanes := rfl
@[simp] theorem State.setProposal_cal (r : Proposal) : (s.setProposal r).cal = s.cal := rfl
@[simp] theorem State.setProposal_plan (r : Proposal) : (s.setProposal r).plan = { s.plan with proposal := some r } := rfl
@[simp] theorem State.setProposal_timer (r : Proposal) : (s.setProposal r).timer = s.timer := rfl
@[simp] theorem State.setProposal_rx (r : Proposal) : (s.setProposal r).rx = s.rx := rfl
@[simp] theorem State.setProposal_rpt (r : Proposal) : (s.setProposal r).rpt = s.rpt := rfl
@[simp] theorem State.setProposal_att (r : Proposal) : (s.setProposal r).att = s.att := rfl
@[simp] theorem State.setProposal_link (r : Proposal) : (s.setProposal r).link = s.link := rfl
@[simp] theorem State.setProposal_pending (r : Proposal) : (s.setProposal r).pending = s.pending := rfl
@[simp] theorem State.setProposal_choices (r : Proposal) : (s.setProposal r).choices = s.choices := rfl

@[simp] theorem State.putEntry_resetLow (i : EntryId) (e : Entry) : (s.putEntry i e).resetLow = s.resetLow := rfl
@[simp] theorem State.putEntry_refclk (i : EntryId) (e : Entry) : (s.putEntry i e).refclk = s.refclk := rfl
@[simp] theorem State.putEntry_mbc (i : EntryId) (e : Entry) : (s.putEntry i e).mbc = s.mbc := rfl
@[simp] theorem State.putEntry_mst (i : EntryId) (e : Entry) : (s.putEntry i e).mst = s.mst := rfl
@[simp] theorem State.putEntry_lanes (i : EntryId) (e : Entry) : (s.putEntry i e).lanes = s.lanes := rfl
@[simp] theorem State.putEntry_cal (i : EntryId) (e : Entry) : (s.putEntry i e).cal = s.cal.setShadow (s.cal.shadow.put i e) := rfl
@[simp] theorem State.putEntry_plan (i : EntryId) (e : Entry) : (s.putEntry i e).plan = s.plan := rfl
@[simp] theorem State.putEntry_timer (i : EntryId) (e : Entry) : (s.putEntry i e).timer = s.timer := rfl
@[simp] theorem State.putEntry_rx (i : EntryId) (e : Entry) : (s.putEntry i e).rx = s.rx := rfl
@[simp] theorem State.putEntry_rpt (i : EntryId) (e : Entry) : (s.putEntry i e).rpt = s.rpt := rfl
@[simp] theorem State.putEntry_att (i : EntryId) (e : Entry) : (s.putEntry i e).att = s.att := rfl
@[simp] theorem State.putEntry_link (i : EntryId) (e : Entry) : (s.putEntry i e).link = s.link := rfl
@[simp] theorem State.putEntry_pending (i : EntryId) (e : Entry) : (s.putEntry i e).pending = s.pending := rfl
@[simp] theorem State.putEntry_choices (i : EntryId) (e : Entry) : (s.putEntry i e).choices = s.choices := rfl

@[simp] theorem State.setShadowHeader_resetLow (h : Header) : (s.setShadowHeader h).resetLow = s.resetLow := rfl
@[simp] theorem State.setShadowHeader_refclk (h : Header) : (s.setShadowHeader h).refclk = s.refclk := rfl
@[simp] theorem State.setShadowHeader_mbc (h : Header) : (s.setShadowHeader h).mbc = s.mbc := rfl
@[simp] theorem State.setShadowHeader_mst (h : Header) : (s.setShadowHeader h).mst = s.mst := rfl
@[simp] theorem State.setShadowHeader_lanes (h : Header) : (s.setShadowHeader h).lanes = s.lanes := rfl
@[simp] theorem State.setShadowHeader_cal (h : Header) : (s.setShadowHeader h).cal = s.cal.setShadow (s.cal.shadow.setHeader h) := rfl
@[simp] theorem State.setShadowHeader_plan (h : Header) : (s.setShadowHeader h).plan = s.plan := rfl
@[simp] theorem State.setShadowHeader_timer (h : Header) : (s.setShadowHeader h).timer = s.timer := rfl
@[simp] theorem State.setShadowHeader_rx (h : Header) : (s.setShadowHeader h).rx = s.rx := rfl
@[simp] theorem State.setShadowHeader_rpt (h : Header) : (s.setShadowHeader h).rpt = s.rpt := rfl
@[simp] theorem State.setShadowHeader_att (h : Header) : (s.setShadowHeader h).att = s.att := rfl
@[simp] theorem State.setShadowHeader_link (h : Header) : (s.setShadowHeader h).link = s.link := rfl
@[simp] theorem State.setShadowHeader_pending (h : Header) : (s.setShadowHeader h).pending = s.pending := rfl
@[simp] theorem State.setShadowHeader_choices (h : Header) : (s.setShadowHeader h).choices = s.choices := rfl

@[simp] theorem State.setParams_resetLow (p : Port) (w : Params) : (s.setParams p w).resetLow = s.resetLow := rfl
@[simp] theorem State.setParams_refclk (p : Port) (w : Params) : (s.setParams p w).refclk = s.refclk := rfl
@[simp] theorem State.setParams_mbc (p : Port) (w : Params) : (s.setParams p w).mbc = { s.mbc with params := s.mbc.params.set p w } := rfl
@[simp] theorem State.setParams_mst (p : Port) (w : Params) : (s.setParams p w).mst = s.mst := rfl
@[simp] theorem State.setParams_lanes (p : Port) (w : Params) : (s.setParams p w).lanes = s.lanes := rfl
@[simp] theorem State.setParams_cal (p : Port) (w : Params) : (s.setParams p w).cal = s.cal := rfl
@[simp] theorem State.setParams_plan (p : Port) (w : Params) : (s.setParams p w).plan = s.plan := rfl
@[simp] theorem State.setParams_timer (p : Port) (w : Params) : (s.setParams p w).timer = s.timer := rfl
@[simp] theorem State.setParams_rx (p : Port) (w : Params) : (s.setParams p w).rx = s.rx := rfl
@[simp] theorem State.setParams_rpt (p : Port) (w : Params) : (s.setParams p w).rpt = s.rpt := rfl
@[simp] theorem State.setParams_att (p : Port) (w : Params) : (s.setParams p w).att = s.att := rfl
@[simp] theorem State.setParams_link (p : Port) (w : Params) : (s.setParams p w).link = s.link := rfl
@[simp] theorem State.setParams_pending (p : Port) (w : Params) : (s.setParams p w).pending = s.pending := rfl
@[simp] theorem State.setParams_choices (p : Port) (w : Params) : (s.setParams p w).choices = s.choices := rfl

@[simp] theorem State.grant_resetLow (d : DescId) (a : Allocation) : (s.grant d a).resetLow = s.resetLow := rfl
@[simp] theorem State.grant_refclk (d : DescId) (a : Allocation) : (s.grant d a).refclk = s.refclk := rfl
@[simp] theorem State.grant_mbc (d : DescId) (a : Allocation) : (s.grant d a).mbc = s.mbc := rfl
@[simp] theorem State.grant_lanes (d : DescId) (a : Allocation) : (s.grant d a).lanes = s.lanes := rfl
@[simp] theorem State.grant_cal (d : DescId) (a : Allocation) : (s.grant d a).cal = s.cal := rfl
@[simp] theorem State.grant_plan (d : DescId) (a : Allocation) : (s.grant d a).plan = s.plan := rfl
@[simp] theorem State.grant_timer (d : DescId) (a : Allocation) : (s.grant d a).timer = s.timer := rfl
@[simp] theorem State.grant_rx (d : DescId) (a : Allocation) : (s.grant d a).rx = s.rx := rfl
@[simp] theorem State.grant_rpt (d : DescId) (a : Allocation) : (s.grant d a).rpt = s.rpt := rfl
@[simp] theorem State.grant_att (d : DescId) (a : Allocation) : (s.grant d a).att = s.att := rfl
@[simp] theorem State.grant_link (d : DescId) (a : Allocation) : (s.grant d a).link = s.link := rfl
@[simp] theorem State.grant_pending (d : DescId) (a : Allocation) : (s.grant d a).pending = s.pending := rfl
@[simp] theorem State.grant_choices (d : DescId) (a : Allocation) : (s.grant d a).choices = s.choices := rfl

@[simp] theorem State.withPending_resetLow (q : List Instr) : (s.withPending q).resetLow = s.resetLow := rfl
@[simp] theorem State.withPending_refclk (q : List Instr) : (s.withPending q).refclk = s.refclk := rfl
@[simp] theorem State.withPending_mbc (q : List Instr) : (s.withPending q).mbc = s.mbc := rfl
@[simp] theorem State.withPending_mst (q : List Instr) : (s.withPending q).mst = s.mst := rfl
@[simp] theorem State.withPending_lanes (q : List Instr) : (s.withPending q).lanes = s.lanes := rfl
@[simp] theorem State.withPending_cal (q : List Instr) : (s.withPending q).cal = s.cal := rfl
@[simp] theorem State.withPending_plan (q : List Instr) : (s.withPending q).plan = s.plan := rfl
@[simp] theorem State.withPending_timer (q : List Instr) : (s.withPending q).timer = s.timer := rfl
@[simp] theorem State.withPending_rx (q : List Instr) : (s.withPending q).rx = s.rx := rfl
@[simp] theorem State.withPending_rpt (q : List Instr) : (s.withPending q).rpt = s.rpt := rfl
@[simp] theorem State.withPending_att (q : List Instr) : (s.withPending q).att = s.att := rfl
@[simp] theorem State.withPending_link (q : List Instr) : (s.withPending q).link = s.link := rfl
@[simp] theorem State.withPending_pending (q : List Instr) : (s.withPending q).pending = q := rfl
@[simp] theorem State.withPending_choices (q : List Instr) : (s.withPending q).choices = s.choices := rfl

/-! ## Reading one record after an update -/

@[simp] theorem State.desc_setDesc (d d' : DescId) (m : Option Desc) :
    (s.setDesc d m).desc d' = if d' = d then m else s.desc d' := by
  simp [State.desc]

@[simp] theorem State.desc_freeDesc (d d' : DescId) (m : Desc) :
    (s.freeDesc d m).desc d' = if d' = d then none else s.desc d' := by
  simp [State.desc]

@[simp] theorem State.lane_modLane (l l' : LaneId) (f : Lane → Lane) :
    (s.modLane l f).lane l' = if l' = l then f (s.lane l') else s.lane l' := by
  simp only [State.lane, State.modLane_lanes, Tbl.at_put]
  by_cases h : l' = l
  · simp [h]
  · simp [h]

@[simp] theorem State.portState_setPort (p q : Port) (st : PortState) :
    (s.setPort p st).portState q = if q = p then st else s.portState q := by
  simp [State.portState]

@[simp] theorem State.lane_answer (p : Port) (a : Answer) (l : LaneId) : (s.answer p a).lane l = s.lane l := rfl
@[simp] theorem State.desc_answer (p : Port) (a : Answer) (d : DescId) : (s.answer p a).desc d = s.desc d := rfl
@[simp] theorem State.portState_answer (p : Port) (a : Answer) (q : Port) :
    (s.answer p a).portState q = s.portState q := rfl
@[simp] theorem State.params_answer (p : Port) (a : Answer) (q : Port) : (s.answer p a).params q = s.params q := rfl
@[simp] theorem State.online_answer (p : Port) (a : Answer) (q : Port) : (s.answer p a).online q = s.online q := rfl
@[simp] theorem State.inRun_answer (p : Port) (a : Answer) : (s.answer p a).inRun = s.inRun := rfl
@[simp] theorem State.shadowEntry_answer (p : Port) (a : Answer) (i : EntryId) :
    (s.answer p a).shadowEntry i = s.shadowEntry i := rfl

/-- Two states that agree on the Membership Controller agree on what is read from it. -/
theorem State.online_congr {s t : State} (h : t.mbc = s.mbc) (p : Port) : t.online p = s.online p := by
  simp [State.online, State.portState, h]

end Sys2Proof.Machine
end

