-- ==== Sys2Proof/Laws/Ops.lean ====
section
/-! SUPPORT. What each shared operation can do, said once: raising events, ending a message, settling a delivery, queueing
one, answering a command, and the counters. Later proofs cite these and do not unfold the operations. -/

namespace Sys2Proof.Machine

open Sys2Proof

/-! ## Frames -/

theorem ChangesOnly.trans {s t u : State} {x y : List Part} (h1 : ChangesOnly s t x) (h2 : ChangesOnly t u y)
    {z : List Part} (hx : ∀ a ∈ x, a ∈ z) (hy : ∀ a ∈ y, a ∈ z) : ChangesOnly s u z := by
  intro a ha
  have h1' := h1 a (fun h => ha (hx a h))
  have h2' := h2 a (fun h => ha (hy a h))
  cases a <;> simp only [Part.same] at * <;> rw [h2', h1']

theorem ChangesOnly.mono {s t : State} {x z : List Part} (h : ChangesOnly s t x) (hx : ∀ a ∈ x, a ∈ z) :
    ChangesOnly s t z := fun a ha => h a fun h' => ha (hx a h')

theorem ChangesOnly.refl (s : State) (x : List Part) : ChangesOnly s s x := by
  intro a _
  cases a <;> rfl

/-! ## Counters -/

theorem bump_eq (c : Half) : bump c = counted c 1 := by
  unfold bump counted
  by_cases h : c = 0xFFFF
  · subst h
    decide
  · rw [if_neg h]
    have h1 : c.toNat ≠ 65535 := fun hc => h (BitVec.eq_of_toNat_eq (by simpa using hc))
    have h2 : c.toNat < 65536 := c.isLt
    apply BitVec.eq_of_toNat_eq
    have h3 : (1 : BitVec 16).toNat = 1 := rfl
    simp only [BitVec.toNat_add, BitVec.toNat_ofNat, h3]
    omega

theorem counted_zero (c : Half) : counted c 0 = c := by
  unfold counted
  have h2 : c.toNat < 65536 := c.isLt
  apply BitVec.eq_of_toNat_eq
  simp only [BitVec.toNat_ofNat]
  omega

theorem counted_counted (c : Half) (m n : Nat) : counted (counted c m) n = counted c (m + n) := by
  unfold counted
  apply BitVec.eq_of_toNat_eq
  simp only [BitVec.toNat_ofNat]
  omega

theorem bumpBy_eq (n : Nat) (c : Half) : bumpBy n c = counted c n := by
  induction n generalizing c with
  | zero => exact (counted_zero c).symm
  | succ n ih => rw [bumpBy, ih, bump_eq, counted_counted, Nat.add_comm]

/-! ## Event sets -/

theorem EventKind.number_lt (k : EventKind) : k.number < 12 := by cases k <;> decide

theorem EventKind.number_inj {j k : EventKind} (h : j.number = k.number) : j = k := by
  cases j <;> cases k <;> first | rfl | simp [EventKind.number] at h

@[simp] theorem EventSet.has_bit (j k : EventKind) : EventSet.has k.bit j = (j == k) := by
  have hj := j.number_lt
  simp only [EventSet.has, EventKind.bit, BitVec.getLsbD_twoPow]
  by_cases h : j = k
  · subst h
    simp [hj]
  · have : k.number ≠ j.number := fun e => h (EventKind.number_inj e.symm)
    simp [h, this]

@[simp] theorem EventSet.has_or (a b : EventSet) (k : EventKind) :
    EventSet.has (a ||| b) k = (EventSet.has a k || EventSet.has b k) := by simp [EventSet.has]

@[simp] theorem EventSet.has_and (a b : EventSet) (k : EventKind) :
    EventSet.has (a &&& b) k = (EventSet.has a k && EventSet.has b k) := by simp [EventSet.has]

@[simp] theorem EventSet.has_not (a : EventSet) (k : EventKind) : EventSet.has (~~~ a) k = !EventSet.has a k := by
  have := k.number_lt
  simp [EventSet.has, this]

/-- Every bit of an event set is the bit of a kind. -/
theorem EventSet.kind_of_bit (i : Nat) (h : i < 12) : ∃ k : EventKind, k.number = i := by
  match i, h with
  | 0, _ => exact ⟨.rxReady, rfl⟩
  | 1, _ => exact ⟨.leaseExpired, rfl⟩
  | 2, _ => exact ⟨.deliveryExpired, rfl⟩
  | 3, _ => exact ⟨.reportReady, rfl⟩
  | 4, _ => exact ⟨.reportLost, rfl⟩
  | 5, _ => exact ⟨.laneClosed, rfl⟩
  | 6, _ => exact ⟨.planOpened, rfl⟩
  | 7, _ => exact ⟨.planDecided, rfl⟩
  | 8, _ => exact ⟨.memberChange, rfl⟩
  | 9, _ => exact ⟨.readyCleared, rfl⟩
  | 10, _ => exact ⟨.exchangeRun, rfl⟩
  | 11, _ => exact ⟨.linkError, rfl⟩

/-- R138: the condition of ATTN_N, kind by kind. -/
theorem Att.attention_iff (a : Att) :
    a.attention = true ↔ ∃ j, EventSet.has a.latched j = true ∧ EventSet.has a.mask j = true := by
  simp only [Att.attention, bne_iff_ne, ne_eq]
  constructor
  · intro h
    by_contra hno
    push Not at hno
    apply h
    apply BitVec.eq_of_getLsbD_eq
    intro i hi
    obtain ⟨k, hk⟩ := EventSet.kind_of_bit i hi
    have := hno k
    simp only [EventSet.has, hk] at this
    simp only [BitVec.getLsbD_and, BitVec.ofNat_eq_ofNat, BitVec.getLsbD_zero]
    cases h1 : a.latched.getLsbD i
    · simp
    · simpa using this h1
  · rintro ⟨j, h1, h2⟩ h0
    have : EventSet.has (a.latched &&& a.mask) j = true := by simp [h1, h2]
    rw [h0] at this
    simp [EventSet.has] at this

/-! ## Raising events -/

@[simp] theorem Att.raise_latched (k j : EventKind) (a : Att) :
    EventSet.has (a.raise k).latched j = (EventSet.has a.latched j || j == k) := by
  unfold Att.raise
  by_cases h : EventSet.has a.latched k = true
  · simp only [h, if_true, Att.line]
    by_cases hj : j = k
    · subst hj
      simp [h]
    · simp [hj]
  · simp [h, Att.line]

@[simp] theorem Att.raise_mask (k : EventKind) (a : Att) : (a.raise k).mask = a.mask := by
  unfold Att.raise
  split <;> rfl

@[simp] theorem Att.raise_snapshot (k : EventKind) (a : Att) : (a.raise k).snapshot = a.snapshot := by
  unfold Att.raise
  split <;> rfl

@[simp] theorem Att.raise_nextSnapshot (k : EventKind) (a : Att) : (a.raise k).nextSnapshot = a.nextSnapshot := by
  unfold Att.raise
  split <;> rfl

theorem Att.raise_renewed (k j : EventKind) (a : Att) :
    EventSet.has (a.raise k).renewed j = (EventSet.has a.renewed j || (j == k && EventSet.has a.latched k)) := by
  unfold Att.raise
  by_cases h : EventSet.has a.latched k = true
  · simp [h, Att.line]
  · simp [h, Att.line]

theorem Att.raise_attnLow (k : EventKind) (a : Att) : (a.raise k).attnLow = (a.raise k).attention := by
  unfold Att.raise
  split <;> rfl

/-- A raise to several ports changes the attention states alone. -/
theorem State.raiseAll_eq (k : EventKind) (ps : List Port) (s : State) :
    s.raiseAll k ps = { s with att := (s.raiseAll k ps).att } := by
  unfold State.raiseAll
  induction ps generalizing s with
  | nil => rfl
  | cons p ps ih =>
    rw [List.foldl_cons, ih]
    rfl

/-- Raises to distinct ports raise once at each. -/
theorem State.raiseAll_att (k : EventKind) (ps : List Port) (s : State) (h : ps.Nodup) (q : Port) :
    (s.raiseAll k ps).att.get q = if q ∈ ps then (s.att.get q).raise k else s.att.get q := by
  unfold State.raiseAll
  induction ps generalizing s with
  | nil => simp
  | cons p ps ih =>
    rw [List.foldl_cons, ih _ (List.nodup_cons.mp h).2]
    have hp := (List.nodup_cons.mp h).1
    by_cases hq : q = p
    · subst hq
      simp [hp]
    · simp [hq]

section RaiseAll

variable (k : EventKind) (ps : List Port) (s : State)

@[simp] theorem State.raiseAll_resetLow : (s.raiseAll k ps).resetLow = s.resetLow := by rw [State.raiseAll_eq]
@[simp] theorem State.raiseAll_refclk : (s.raiseAll k ps).refclk = s.refclk := by rw [State.raiseAll_eq]
@[simp] theorem State.raiseAll_mbc : (s.raiseAll k ps).mbc = s.mbc := by rw [State.raiseAll_eq]
@[simp] theorem State.raiseAll_mst : (s.raiseAll k ps).mst = s.mst := by rw [State.raiseAll_eq]
@[simp] theorem State.raiseAll_lanes : (s.raiseAll k ps).lanes = s.lanes := by rw [State.raiseAll_eq]
@[simp] theorem State.raiseAll_cal : (s.raiseAll k ps).cal = s.cal := by rw [State.raiseAll_eq]
@[simp] theorem State.raiseAll_plan : (s.raiseAll k ps).plan = s.plan := by rw [State.raiseAll_eq]
@[simp] theorem State.raiseAll_timer : (s.raiseAll k ps).timer = s.timer := by rw [State.raiseAll_eq]
@[simp] theorem State.raiseAll_rx : (s.raiseAll k ps).rx = s.rx := by rw [State.raiseAll_eq]
@[simp] theorem State.raiseAll_rpt : (s.raiseAll k ps).rpt = s.rpt := by rw [State.raiseAll_eq]
@[simp] theorem State.raiseAll_link : (s.raiseAll k ps).link = s.link := by rw [State.raiseAll_eq]
@[simp] theorem State.raiseAll_pending : (s.raiseAll k ps).pending = s.pending := by rw [State.raiseAll_eq]
@[simp] theorem State.raiseAll_choices : (s.raiseAll k ps).choices = s.choices := by rw [State.raiseAll_eq]

end RaiseAll

/-- No latched kind is lost by a raise. -/
theorem State.raiseAll_latched (k j : EventKind) (ps : List Port) (s : State) (q : Port)
    (h : EventSet.has (s.att.get q).latched j = true) :
    EventSet.has ((s.raiseAll k ps).att.get q).latched j = true := by
  unfold State.raiseAll
  induction ps generalizing s with
  | nil => exact h
  | cons p ps ih =>
    rw [List.foldl_cons]
    apply ih
    by_cases hq : q = p
    · subst hq
      simp [h]
    · simp [hq, h]

/-! ## Message ends -/

/-- What a posted report can change: the report state and the attention state. -/
theorem State.post_eq (s : State) (m : Desc) (r : Report) :
    s.post m r = { s with rpt := (s.post m r).rpt, att := (s.post m r).att } := by
  unfold State.post State.appendReport
  split
  · dsimp only
    split
    · split <;> rfl
    · rfl
  · rfl

/-- What a message end can change: the store, the report state and the attention state. -/
theorem State.endMessage_eq (s : State) (d : DescId) (e : Ending) :
    s.endMessage d e =
      { s with mst := (s.endMessage d e).mst, rpt := (s.endMessage d e).rpt, att := (s.endMessage d e).att } := by
  unfold State.endMessage
  split
  · rfl
  · rw [State.post_eq]
    rfl

section EndMessage

variable (s : State) (d : DescId) (e : Ending)

@[simp] theorem State.endMessage_resetLow : (s.endMessage d e).resetLow = s.resetLow := by rw [State.endMessage_eq]
@[simp] theorem State.endMessage_refclk : (s.endMessage d e).refclk = s.refclk := by rw [State.endMessage_eq]
@[simp] theorem State.endMessage_mbc : (s.endMessage d e).mbc = s.mbc := by rw [State.endMessage_eq]
@[simp] theorem State.endMessage_lanes : (s.endMessage d e).lanes = s.lanes := by rw [State.endMessage_eq]
@[simp] theorem State.endMessage_cal : (s.endMessage d e).cal = s.cal := by rw [State.endMessage_eq]
@[simp] theorem State.endMessage_plan : (s.endMessage d e).plan = s.plan := by rw [State.endMessage_eq]
@[simp] theorem State.endMessage_timer : (s.endMessage d e).timer = s.timer := by rw [State.endMessage_eq]
@[simp] theorem State.endMessage_rx : (s.endMessage d e).rx = s.rx := by rw [State.endMessage_eq]
@[simp] theorem State.endMessage_link : (s.endMessage d e).link = s.link := by rw [State.endMessage_eq]
@[simp] theorem State.endMessage_pending : (s.endMessage d e).pending = s.pending := by rw [State.endMessage_eq]
@[simp] theorem State.endMessage_choices : (s.endMessage d e).choices = s.choices := by rw [State.endMessage_eq]

end EndMessage

@[simp] theorem State.post_mst (s : State) (m : Desc) (r : Report) : (s.post m r).mst = s.mst := by rw [State.post_eq]

/-- A message end frees its descriptor and its buffers, and no other. -/
theorem State.endMessage_mst (s : State) (d : DescId) (e : Ending) (m : Desc) (h : s.desc d = some m) :
    (s.endMessage d e).mst = { s.mst with
      desc := s.mst.desc.put d none
      free := s.mst.free ++ m.fragments
      held := s.mst.held.modify m.source (· - m.fragments.length) } := by
  unfold State.endMessage
  rw [h]
  simp

theorem State.endMessage_free (s : State) (d : DescId) (e : Ending) (h : s.desc d = none) : s.endMessage d e = s := by
  unfold State.endMessage
  rw [h]

/-- After a message end its descriptor is FREE, and every other is as it was. -/
@[simp] theorem State.desc_endMessage (s : State) (d d' : DescId) (e : Ending) :
    (s.endMessage d e).desc d' = if d' = d then none else s.desc d' := by
  cases h : s.desc d with
  | none =>
    rw [State.endMessage_free s d e h]
    by_cases hd : d' = d
    · simp [hd, h]
    · simp [hd]
  | some m =>
    rw [State.desc, State.endMessage_mst s d e m h]
    simp [State.desc]

/-- The purge of a list of descriptors changes the lanes as popping would, and ends the messages. -/
theorem purgeQueue_cons (l : LaneId) (d : DescId) (ds : List DescId) (s : State) :
    purgeQueue l (d :: ds) s = purgeQueue l ds ((s.modLane l Lane.pop).endMessage d .purged) := rfl

/-! ## Deliveries -/

/-- What settling a delivery can change: the store, the report state and the attention state. -/
theorem State.settle_eq (s : State) (d : DescId) (p : Port) (v : Delivery) :
    s.settle d p v =
      { s with mst := (s.settle d p v).mst, rpt := (s.settle d p v).rpt, att := (s.settle d p v).att } := by
  unfold State.settle
  split
  · rfl
  · dsimp only
    split
    · rw [State.endMessage_eq]
      rfl
    · rfl

section Settle

variable (s : State) (d : DescId) (p : Port) (v : Delivery)

@[simp] theorem State.settle_resetLow : (s.settle d p v).resetLow = s.resetLow := by rw [State.settle_eq]
@[simp] theorem State.settle_refclk : (s.settle d p v).refclk = s.refclk := by rw [State.settle_eq]
@[simp] theorem State.settle_mbc : (s.settle d p v).mbc = s.mbc := by rw [State.settle_eq]
@[simp] theorem State.settle_lanes : (s.settle d p v).lanes = s.lanes := by rw [State.settle_eq]
@[simp] theorem State.settle_cal : (s.settle d p v).cal = s.cal := by rw [State.settle_eq]
@[simp] theorem State.settle_plan : (s.settle d p v).plan = s.plan := by rw [State.settle_eq]
@[simp] theorem State.settle_timer : (s.settle d p v).timer = s.timer := by rw [State.settle_eq]
@[simp] theorem State.settle_rx : (s.settle d p v).rx = s.rx := by rw [State.settle_eq]
@[simp] theorem State.settle_link : (s.settle d p v).link = s.link := by rw [State.settle_eq]
@[simp] theorem State.settle_pending : (s.settle d p v).pending = s.pending := by rw [State.settle_eq]
@[simp] theorem State.settle_choices : (s.settle d p v).choices = s.choices := by rw [State.settle_eq]

end Settle

/-- What queueing a delivery does: one queue grows by one, and RX_READY is raised exactly when the count comes to the
watermark. -/
theorem State.enqueue_eq (s : State) (p : Port) (d : DescId) (pos : Position) :
    s.enqueue p d pos =
      { s with
        rx := s.rx.modify p fun r => { r with queue := match pos with
          | .head => d :: r.queue
          | .tail => r.queue ++ [d] }
        att := if (s.rx.get p).queue.length + 1 = (s.params p).watermark then s.att.modify p (Att.raise .rxReady) else s.att } := by
  unfold State.enqueue
  dsimp only
  by_cases h : (s.rx.get p).queue.length + 1 = (s.params p).watermark
  · rw [if_pos h, if_pos (by simp; omega)]
    rfl
  · rw [if_neg h, if_neg (by simp; omega)]
    rfl

/-! ## Commands -/

/-- A command the part takes: its block acts, and the answer goes to the port's link. -/
theorem command_takes {i : Instr} {p : Port} {s : State} {act : State → State × Answer} (h : s.takes i = true) :
    command i p s act = .next ((act s).1.answer p (act s).2) := by
  unfold command
  rw [if_pos h]

/-- R155: an answer is formed with the exchange state as it stands. -/
theorem State.formed_eq (s : State) (a : Answer) : s.formed a = ⟨a, s.inRun⟩ := rfl

theorem answers_answer (s : State) (p : Port) (a : Answer) : Answers s (s.answer p a) p a := by
  constructor
  · simp [State.formed_eq]
  · intro q hq
    simp [hq]

/-- Every command of Table 11-14 reaches its block through `command`. -/
theorem exec_command {i : Instr} {p : Port} {code : Byte} {payload : List Byte}
    (h : i.command? = some (p, code, payload)) : ∃ act, ∀ s, exec i s = command i p s act := by
  cases i <;> simp only [Instr.command?, Option.some.injEq, Prod.mk.injEq, reduceCtorEq] at h <;>
    (obtain ⟨rfl, rfl, rfl⟩ := h; exact ⟨_, fun _ => rfl⟩)

/-- A command the part does not take changes nothing. -/
theorem command_not_taken {i : Instr} {p : Port} {s : State} {act : State → State × Answer} (h : s.takes i = false) :
    command i p s act = .next s := by
  unfold command
  rw [h]
  rfl

/-- A command whose block refuses answers and changes nothing else. -/
theorem justAnswers_of_act {i : Instr} {p : Port} {s : State} {act : State → State × Answer} {st : Status}
    {payload : List Byte} (he : exec i s = command i p s act) (ht : s.takes i = true)
    (ha : act s = (s, .reply st payload)) : JustAnswers i s p st payload := by
  refine ⟨s.answer p (.reply st payload), ?_, answers_answer _ _ _, ?_⟩
  · rw [he, command_takes ht, ha]
  · intro x hx
    cases x <;> first | rfl | simp at hx

/-! ## Responses -/

/-- R172: the response of a reply carries the RUN flag formed with it and the ATTENTION flag that holds now. -/
theorem State.respond_reply (s : State) (p : Port) (tag : Byte) (st : Status) (payload : List Byte) (run : Bool) :
    s.respond p tag ⟨.reply st payload, run⟩ = ⟨st, tag, false, (s.att.get p).attention, run, payload⟩ := rfl

/-- R172, R175: the response to a REPEAT is the stored one, marked REPLAY. -/
theorem State.respond_stored (s : State) (p : Port) (tag : Byte) (r : Response) (run : Bool) :
    s.respond p tag ⟨.stored r, run⟩ = { r with replay := true } := rfl

/-- R171, R173, R177: what is not recorded. -/
theorem recorded_eq_false {code : Byte} {st : Status} : recorded code st = false ↔ code = 0x02 ∨ (code = 0x03 ∧ st = .ok) := by
  simp only [recorded, bne, Bool.and_eq_false_iff, Bool.or_eq_false_iff, Bool.not_eq_false', beq_iff_eq]

/-! ## Taking a request -/

/-- R174: a request that does not match the record is no replay. -/
theorem Link.replayOf_eq_none {l : Link} {r : Request}
    (h : ∀ k, l.record = some k → ¬ (r.tag ≠ 0 ∧ k.tag = r.tag ∧ k.code = r.code)) : l.replayOf r = none := by
  unfold Link.replayOf
  split
  · rfl
  · rename_i k hk
    rw [if_neg (h k hk)]

/-- R174: a request that matches the record is a replay of its response. -/
theorem Link.replayOf_eq_some {l : Link} {r : Request} {k : LinkRecord} (hk : l.record = some k)
    (h : r.tag ≠ 0 ∧ k.tag = r.tag ∧ k.code = r.code) : l.replayOf r = some k.response := by
  unfold Link.replayOf
  rw [hk]
  dsimp only
  rw [if_pos h]

/-- R170: a request that is no replay starts to execute. -/
theorem Link.take_new {s : State} {l : Link} {p : Port} {r : Request} (h : l.replayOf r = none) :
    l.take s p r = { l with executing := some r, answer := s.linkAnswer p r } := by
  unfold Link.take
  rw [h]

/-- R171: the link itself answers a code that is not in the table. -/
theorem State.linkAnswer_eq (s : State) (p : Port) (r : Request) :
    s.linkAnswer p r = if commandOf p r.code r.payload = none then
      some ⟨.reply .badCommand [], s.inRun⟩ else none := by
  unfold State.linkAnswer
  cases commandOf p r.code r.payload <;> rfl

end Sys2Proof.Machine
end

