-- ==== Sys2Proof/Laws/Blocks.lean ====
section
/-! SUPPORT. Which parts of the state each block's larger operation can change: the parts it names, and no other. -/

namespace Sys2Proof.Machine

open Sys2Proof

/-! ## The relation -/

theorem ChangesOnly.comp {s t u : State} {x : List Part} (h1 : ChangesOnly s t x) (h2 : ChangesOnly t u x) :
    ChangesOnly s u x := h1.trans h2 (fun _ h => h) fun _ h => h

theorem ChangesOnly.foldl {α : Type} {x : List Part} (f : State → α → State) (h : ∀ s a, ChangesOnly s (f s a) x)
    (l : List α) (s : State) : ChangesOnly s (l.foldl f s) x := by
  induction l generalizing s with
  | nil => exact ChangesOnly.refl _ _
  | cons a l ih => exact (h s a).comp (ih _)

section Fields

variable {s t : State} {x : List Part}

theorem ChangesOnly.pending (h : ChangesOnly s t x) (hx : Part.pending ∉ x) : t.pending = s.pending := h _ hx
theorem ChangesOnly.choices (h : ChangesOnly s t x) (hx : Part.choices ∉ x) : t.choices = s.choices := h _ hx
theorem ChangesOnly.resetLow (h : ChangesOnly s t x) (hx : Part.resetLow ∉ x) : t.resetLow = s.resetLow := h _ hx
theorem ChangesOnly.refclk (h : ChangesOnly s t x) (hx : Part.refclk ∉ x) : t.refclk = s.refclk := h _ hx
theorem ChangesOnly.mbc (h : ChangesOnly s t x) (hx : Part.mbc ∉ x) : t.mbc = s.mbc := h _ hx
theorem ChangesOnly.mst (h : ChangesOnly s t x) (hx : Part.mst ∉ x) : t.mst = s.mst := h _ hx
theorem ChangesOnly.lanes (h : ChangesOnly s t x) (hx : Part.lanes ∉ x) : t.lanes = s.lanes := h _ hx
theorem ChangesOnly.cal (h : ChangesOnly s t x) (hx : Part.cal ∉ x) : t.cal = s.cal := h _ hx
theorem ChangesOnly.plan (h : ChangesOnly s t x) (hx : Part.plan ∉ x) : t.plan = s.plan := h _ hx
theorem ChangesOnly.timer (h : ChangesOnly s t x) (hx : Part.timer ∉ x) : t.timer = s.timer := h _ hx
theorem ChangesOnly.rx (h : ChangesOnly s t x) (hx : Part.rx ∉ x) : t.rx = s.rx := h _ hx
theorem ChangesOnly.rpt (h : ChangesOnly s t x) (hx : Part.rpt ∉ x) : t.rpt = s.rpt := h _ hx
theorem ChangesOnly.att (h : ChangesOnly s t x) (hx : Part.att ∉ x) : t.att = s.att := h _ hx
theorem ChangesOnly.link (h : ChangesOnly s t x) (hx : Part.link ∉ x) : t.link = s.link := h _ hx

end Fields

/-! ## Single updates -/

variable (s : State)

theorem State.setDesc_changes (d : DescId) (m : Option Desc) : ChangesOnly s (s.setDesc d m) [.mst] := by
  intro x hx
  cases x <;> first | rfl | simp at hx

theorem State.modLane_changes (l : LaneId) (f : Lane → Lane) : ChangesOnly s (s.modLane l f) [.lanes] := by
  intro x hx
  cases x <;> first | rfl | simp at hx

theorem State.modRx_changes (p : Port) (f : Rx → Rx) : ChangesOnly s (s.modRx p f) [.rx] := by
  intro x hx
  cases x <;> first | rfl | simp at hx

theorem State.modRpt_changes (p : Port) (f : Rpt → Rpt) : ChangesOnly s (s.modRpt p f) [.rpt] := by
  intro x hx
  cases x <;> first | rfl | simp at hx

theorem State.modAtt_changes (p : Port) (f : Att → Att) : ChangesOnly s (s.modAtt p f) [.att] := by
  intro x hx
  cases x <;> first | rfl | simp at hx

theorem State.modLink_changes (p : Port) (f : Link → Link) : ChangesOnly s (s.modLink p f) [.link] := by
  intro x hx
  cases x <;> first | rfl | simp at hx

theorem State.modRefusals_changes (p : Port) (f : Refusals → Refusals) : ChangesOnly s (s.modRefusals p f) [.mst] := by
  intro x hx
  cases x <;> first | rfl | simp at hx

theorem State.setPort_changes (p : Port) (st : PortState) : ChangesOnly s (s.setPort p st) [.mbc] := by
  intro x hx
  cases x <;> first | rfl | simp at hx

theorem State.raise_changes (k : EventKind) (p : Port) : ChangesOnly s (s.raise k p) [.att] := by
  intro x hx
  cases x <;> first | rfl | simp at hx

theorem State.answer_changes (p : Port) (a : Answer) : ChangesOnly s (s.answer p a) [.link] := by
  intro x hx
  cases x <;> first | rfl | simp at hx

theorem State.raiseAll_changes (k : EventKind) (ps : List Port) : ChangesOnly s (s.raiseAll k ps) [.att] :=
  ChangesOnly.foldl _ (fun s p => s.raise_changes k p) ps s

theorem State.endMessage_changes (d : DescId) (e : Ending) : ChangesOnly s (s.endMessage d e) [.mst, .rpt, .att] := by
  intro x hx
  cases x <;> first | (simp [Part.same]; done) | simp at hx

theorem State.settle_changes (d : DescId) (p : Port) (v : Delivery) :
    ChangesOnly s (s.settle d p v) [.mst, .rpt, .att] := by
  intro x hx
  cases x <;> first | (simp [Part.same]; done) | simp at hx

theorem State.enqueue_changes (p : Port) (d : DescId) (pos : Position) :
    ChangesOnly s (s.enqueue p d pos) [.rx, .att] := by
  rw [State.enqueue_eq]
  intro x hx
  cases x <;> first | rfl | simp at hx

/-! ## Lane Unit -/

theorem purgeQueue_changes (l : LaneId) (ds : List DescId) : ChangesOnly s (purgeQueue l ds s) [.lanes, .mst, .rpt, .att] := by
  induction ds generalizing s with
  | nil => exact ChangesOnly.refl _ _
  | cons d ds ih =>
    have h1 := (s.modLane_changes l Lane.pop).mono (z := [.lanes, .mst, .rpt, .att]) (by simp)
    have h2 := ((s.modLane l Lane.pop).endMessage_changes d .purged).mono (z := [.lanes, .mst, .rpt, .att]) (by simp)
    exact (h1.comp h2).comp (ih _)

theorem State.purge_changes (l : LaneId) : ChangesOnly s (s.purge l) [.lanes, .mst, .rpt, .att] := purgeQueue_changes s l _

theorem leaveLane_changes (p : Port) (l : LaneId) : ChangesOnly s (leaveLane p s l) [.lanes, .mst, .rpt, .att] := by
  unfold leaveLane
  split
  · exact (s.purge_changes l).comp (((s.purge l).modLane_changes l _).mono (by simp))
  · exact ChangesOnly.refl _ _

theorem State.leaveLanes_changes (p : Port) : ChangesOnly s (s.leaveLanes p) [.lanes, .mst, .rpt, .att] :=
  ChangesOnly.foldl _ (fun s l => leaveLane_changes s p l) _ s

theorem State.grant_changes (d : DescId) (a : Allocation) : ChangesOnly s (s.grant d a) [.mst] := by
  intro x hx
  cases x <;> first | rfl | simp at hx

/-! ## Calendar Store and Plan Coordinator -/

theorem State.putEntry_changes (i : EntryId) (e : Entry) : ChangesOnly s (s.putEntry i e) [.cal] := by
  intro x hx
  cases x <;> first | rfl | simp at hx

theorem State.setShadowHeader_changes (h : Header) : ChangesOnly s (s.setShadowHeader h) [.cal] := by
  intro x hx
  cases x <;> first | rfl | simp at hx

theorem State.leaveShadow_changes (p : Port) : ChangesOnly s (s.leaveShadow p) [.cal] := by
  intro x hx
  cases x <;> first | rfl | simp at hx

theorem State.swapBanks_changes : ChangesOnly s s.swapBanks [.cal] := by
  intro x hx
  cases x <;> first | rfl | simp at hx

theorem State.setProposal_changes (r : Proposal) : ChangesOnly s (s.setProposal r) [.plan] := by
  intro x hx
  cases x <;> first | rfl | simp at hx

theorem State.decidePlan_changes (r : Proposal) (o : PlanOutcome) : ChangesOnly s (s.decidePlan r o) [.plan, .att] := by
  intro x hx
  cases x <;> first | (simp [State.decidePlan, Part.same]; done) | simp at hx

theorem State.openProposal_changes (p : Port) : ChangesOnly s (s.openProposal p) [.plan, .att] := by
  intro x hx
  cases x <;> first | (simp [State.openProposal, Part.same]; done) | simp at hx

theorem State.castVote_changes (r : Proposal) (p : Port) (ch : Choice) : ChangesOnly s (s.castVote r p ch) [.plan, .att] := by
  cases ch with
  | yes => exact (s.setProposal_changes _).mono (by simp)
  | no => exact s.decidePlan_changes _ _

theorem State.planBoundary_changes : ChangesOnly s s.planBoundary [.plan, .att, .cal] := by
  unfold State.planBoundary
  split
  · exact ChangesOnly.refl _ _
  · rename_i r _
    split
    · exact ((s.decidePlan_changes r .applied).mono (by simp)).comp ((State.swapBanks_changes _).mono (by simp))
    · split
      · exact (s.decidePlan_changes r .lapsedDeadline).mono (by simp)
      · exact (s.setProposal_changes _).mono (by simp)

theorem State.leavePlan_changes (p : Port) : ChangesOnly s (s.leavePlan p) [.plan, .att] := by
  unfold State.leavePlan
  split
  · exact ChangesOnly.refl _ _
  · split
    · exact s.decidePlan_changes _ _
    · split
      · exact s.decidePlan_changes _ _
      · split
        · exact (s.setProposal_changes _).mono (by simp)
        · exact ChangesOnly.refl _ _

/-! ## Receive Unit and Report Unit -/

theorem State.modDesc_changes (d : DescId) (f : Desc → Desc) : ChangesOnly s (s.modDesc d f) [.mst] := by
  unfold State.modDesc
  split
  · exact ChangesOnly.refl _ _
  · exact s.setDesc_changes _ _

theorem State.setDelivery_changes (d : DescId) (p : Port) (v : Delivery) : ChangesOnly s (s.setDelivery d p v) [.mst] := by
  unfold State.setDelivery
  split
  · exact ChangesOnly.refl _ _
  · exact s.setDesc_changes _ _

theorem State.grantLease_changes (p : Port) (n : SlotId) (d : DescId) : ChangesOnly s (s.grantLease p n d) [.rx, .mst] :=
  ((s.modRx_changes p _).mono (by simp)).comp ((State.modDesc_changes _ d _).mono (by simp))

theorem State.endLease_changes (p : Port) (n : SlotId) (c : EndCause) : ChangesOnly s (s.endLease p n c) [.rx] :=
  s.modRx_changes p _

theorem State.giveUp_changes (p : Port) (d : DescId) : ChangesOnly s (s.giveUp p d) [.rx, .mst, .rpt, .att] :=
  (((s.modRx_changes p _).mono (by simp)).comp ((State.raise_changes _ _ p).mono (by simp))).comp
    ((State.settle_changes _ d p _).mono (by simp))

theorem State.endWithoutAck_changes (p : Port) (n : SlotId) (d : DescId) (c : EndCause) (pos : Position) :
    ChangesOnly s (s.endWithoutAck p n d c pos) [.rx, .mst, .rpt, .att] := by
  have h1 := (s.endLease_changes p n c).mono (z := [.rx, .mst, .rpt, .att]) (by simp)
  unfold State.endWithoutAck
  dsimp only
  split
  · exact h1.comp (State.giveUp_changes _ p d)
  · exact (h1.comp ((State.setDelivery_changes _ d p _).mono (by simp))).comp ((State.enqueue_changes _ p d pos).mono (by simp))

theorem leaveSlot_changes (p : Port) (n : SlotId) : ChangesOnly s (leaveSlot p s n) [.rx, .mst, .rpt, .att] := by
  unfold leaveSlot
  split
  · exact ChangesOnly.refl _ _
  · exact ((s.modRx_changes p _).mono (by simp)).comp ((State.settle_changes _ _ p _).mono (by simp))

theorem leaveQueue_changes (p : Port) (ds : List DescId) : ChangesOnly s (leaveQueue p ds s) [.rx, .mst, .rpt, .att] := by
  induction ds generalizing s with
  | nil => exact ChangesOnly.refl _ _
  | cons d ds ih =>
    have h1 := (s.modRx_changes p fun r => { r with queue := r.queue.tail }).mono (z := [.rx, .mst, .rpt, .att]) (by simp)
    exact (h1.comp ((State.settle_changes _ d p .abandoned).mono (by simp))).comp (ih _)

theorem State.leaveReceive_changes (p : Port) : ChangesOnly s (s.leaveReceive p) [.rx, .mst, .rpt, .att] :=
  ((ChangesOnly.foldl _ (fun s n => leaveSlot_changes s p n) _ s).comp (leaveQueue_changes _ p _)).comp
    ((State.modRx_changes _ p _).mono (by simp))

/-! ## Release Engine and Cycle Timer -/

theorem countMiss_changes (d : Port) : ChangesOnly s (countMiss s d) [.rx] := s.modRx_changes d _

/-- The parts a release pass can change. -/
def passParts : List Part := [.lanes, .mst, .rx, .rpt, .att]

theorem State.commit_changes (l : LaneId) (d : DescId) (m : Desc) (st : Stamp) :
    ChangesOnly s (s.commit l d m st) passParts := by
  unfold State.commit
  dsimp only
  have h1 := fun f v => ((s.modLane_changes l f).mono (z := passParts) (by simp [passParts])).comp
    ((State.setDesc_changes (s.modLane l f) d v).mono (by simp [passParts]))
  have h2 := fun (s : State) (ps : List Port) => ChangesOnly.foldl (x := passParts) (fun s q => s.enqueue q d .tail)
    (fun s q => (s.enqueue_changes q d .tail).mono (by simp [passParts])) ps s
  have h3 := fun (s : State) (ps : List Port) => ChangesOnly.foldl (x := passParts) countMiss
    (fun s q => (countMiss_changes s q).mono (by simp [passParts])) ps s
  split
  · exact (((h1 _ _).comp (h2 _ _)).comp (h3 _ _)).comp ((State.endMessage_changes _ d .released).mono (by simp [passParts]))
  · exact ((h1 _ _).comp (h2 _ _)).comp (h3 _ _)

theorem State.discardStale_changes (l : LaneId) (d : DescId) : ChangesOnly s (s.discardStale l d) passParts :=
  (((s.modLane_changes l _).mono (by simp [passParts])).comp ((State.endMessage_changes _ d .stale).mono (by simp [passParts]))).comp
    ((State.modLane_changes _ l _).mono (by simp [passParts]))

theorem passLoop_changes (l : LaneId) (t : LaneSettings) (st : Stamp) (ds : List DescId) (left : Nat) (any : Bool) :
    ChangesOnly s (passLoop l t st ds left any s) passParts := by
  have lane := fun (s : State) f => (s.modLane_changes l f).mono (z := passParts) (by simp [passParts])
  induction ds generalizing s left any with
  | nil =>
    cases left with
    | zero => exact ChangesOnly.refl _ _
    | succ n =>
      unfold passLoop
      split
      · exact ChangesOnly.refl _ _
      · exact lane _ _
  | cons d ds ih =>
    cases left with
    | zero => exact ChangesOnly.refl _ _
    | succ n =>
      unfold passLoop
      split
      · exact (lane _ _).comp (ih _ _ _)
      · split
        · exact (s.discardStale_changes l d).comp (ih _ _ _)
        · split
          · exact lane _ _
          · exact (s.commit_changes l d _ st).comp (ih _ _ _)

theorem State.passLane_changes (l : LaneId) (b : Nat) (st : Stamp) : ChangesOnly s (s.passLane l b st) passParts := by
  unfold State.passLane
  split
  · exact ChangesOnly.refl _ _
  · split
    · exact ChangesOnly.refl _ _
    · rename_i t _
      refine (passLoop_changes s l t st (s.lane l).queue b false).comp ?_
      unfold State.drained
      split
      · exact ((State.modLane_changes _ l _).mono (by simp [passParts])).comp ((State.raise_changes _ _ _).mono (by simp [passParts]))
      · exact ChangesOnly.refl _ _

theorem State.releasePass_changes : ChangesOnly s s.releasePass passParts := by
  unfold State.releasePass
  split
  · exact ChangesOnly.refl _ _
  · exact s.passLane_changes _ _ _

/-- A cycle boundary changes the timer but for its time base and its state, and what the Plan Coordinator does there. -/
theorem State.boundary_changes (t : Time) : ChangesOnly s (s.boundary t) [.plan, .att, .cal, .timer] := by
  refine ChangesOnly.comp (t := s.planBoundary) (s.planBoundary_changes.mono (by simp)) ?_
  intro x hx
  cases x <;> first | rfl | simp at hx

/-- The parts a slot start can change. -/
def slotParts : List Part := [.timer, .plan, .cal, .att, .lanes, .mst, .rx, .rpt]

/-- A state that differs in its timer alone. -/
theorem timer_changes (t : Timer) : ChangesOnly s { s with timer := t } [.timer] := by
  intro x hx
  cases x <;> first | rfl | simp at hx

theorem State.nextIndex_changes (t : Time) : ChangesOnly s (s.nextIndex t) [.plan, .att, .cal, .timer] := by
  unfold State.nextIndex
  split
  · exact (timer_changes s _).mono (by simp)
  · exact ((timer_changes s _).mono (by simp)).comp (State.boundary_changes _ t)

theorem State.scheduleNext_changes (t : Time) : ChangesOnly s (s.scheduleNext t) [.timer] := timer_changes s _

theorem State.slotStartAt_changes (t : Time) : ChangesOnly s (s.slotStartAt t) slotParts := by
  unfold State.slotStartAt
  refine ChangesOnly.comp ?_ ((State.releasePass_changes _).mono (by simp [passParts, slotParts]))
  refine ChangesOnly.comp ?_ ((State.scheduleNext_changes _ t).mono (by simp [slotParts]))
  refine ChangesOnly.comp ?_ ((State.nextIndex_changes _ t).mono (by simp [slotParts]))
  exact (timer_changes s _).mono (by simp [slotParts])

theorem State.startTimer_changes : ChangesOnly s s.startTimer slotParts := by
  unfold State.startTimer
  dsimp only
  refine ChangesOnly.comp ?_ ((State.releasePass_changes _).mono (by simp [passParts, slotParts]))
  refine ChangesOnly.comp ?_ ((State.scheduleNext_changes _ _).mono (by simp [slotParts]))
  refine ChangesOnly.comp ?_ ((State.boundary_changes _ _).mono (by simp [slotParts]))
  exact (timer_changes s _).mono (by simp [slotParts])

/-! ## Membership Controller -/

theorem State.clearReady_changes : ChangesOnly s s.clearReady [.mbc, .att] :=
  ChangesOnly.foldl _ (fun s p => ((s.setPort_changes p _).mono (by simp)).comp ((State.raise_changes _ _ p).mono (by simp))) _ s

/-- The parts a start of RUN can change. -/
def runParts : List Part := .mbc :: slotParts

theorem State.copyHeader_changes : ChangesOnly s s.copyHeader [.cal] := by
  intro x hx
  cases x <;> first | rfl | simp at hx

theorem State.startRun_changes : ChangesOnly s s.startRun runParts := by
  unfold State.startRun
  refine ChangesOnly.comp ?_ ((State.startTimer_changes _).mono (by simp [runParts, slotParts]))
  refine ChangesOnly.comp ?_ ((State.copyHeader_changes _).mono (by simp [runParts, slotParts]))
  refine ChangesOnly.comp ?_ ((State.raiseAll_changes _ _ _).mono (by simp [runParts, slotParts]))
  intro x hx
  cases x <;> first | rfl | simp [runParts] at hx

/-- The parts a leave can change. -/
def leaveParts : List Part := [.mbc, .timer, .plan, .cal, .att, .lanes, .mst, .rx, .rpt]

theorem State.endRunIfEmpty_changes : ChangesOnly s s.endRunIfEmpty [.mbc, .timer, .cal] := by
  unfold State.endRunIfEmpty
  split
  · intro x hx
    cases x <;> first | rfl | simp at hx
  · exact ChangesOnly.refl _ _

theorem State.leave_changes (p : Port) : ChangesOnly s (s.leave p) leaveParts := by
  unfold State.leave
  dsimp only
  refine ChangesOnly.comp ?_ ((State.endRunIfEmpty_changes _).mono (by simp [leaveParts]))
  refine ChangesOnly.comp ?_ ((State.modRpt_changes _ p _).mono (by simp [leaveParts]))
  refine ChangesOnly.comp ?_ ((State.leaveReceive_changes _ p).mono (by simp [leaveParts]))
  refine ChangesOnly.comp ?_ ((State.leaveLanes_changes _ p).mono (by simp [leaveParts]))
  refine ChangesOnly.comp ?_ ((State.leaveShadow_changes _ p).mono (by simp [leaveParts]))
  refine ChangesOnly.comp ?_ ((State.leavePlan_changes _ p).mono (by simp [leaveParts]))
  refine ChangesOnly.comp ?_ ((State.raiseAll_changes _ _ _).mono (by simp [leaveParts]))
  exact (s.setPort_changes p .offline).mono (by simp [leaveParts])

end Sys2Proof.Machine
end

