-- ==== Sys2Proof/Laws/Commands.lean ====
section
/-! SUPPORT. Which parts of the state each command can change at its block, and what every command leaves alone. -/

namespace Sys2Proof.Machine

open Sys2Proof

variable (s : State) (p : Port)

/-! ## The checks common to commands -/

theorem refuse_changes (st : Status) (x : List Part) : ChangesOnly s (refuse s st).1 x := ChangesOnly.refl s x

theorem reply_changes (st : Status) (b : List Byte) (x : List Part) : ChangesOnly s (reply s st b).1 x := ChangesOnly.refl s x

theorem memberElse_changes (b : List Byte) (act : State × Answer) (x : List Part) (h : ChangesOnly s act.1 x) :
    ChangesOnly s (memberElse s p b act).1 x := by
  unfold memberElse
  split
  · exact ChangesOnly.refl s x
  · split
    · exact ChangesOnly.refl s x
    · exact h

theorem memberOnly_changes (act : State × Answer) (x : List Part) (h : ChangesOnly s act.1 x) :
    ChangesOnly s (memberOnly s p act).1 x := memberElse_changes s p [] act x h

theorem laneChecks_changes (lane : Byte) (act : LaneId → State × Answer) (x : List Part)
    (h : ∀ l, ChangesOnly s (act l).1 x) : ChangesOnly s (laneChecks s p lane act).1 x := by
  apply memberOnly_changes
  split
  · exact ChangesOnly.refl s x
  · exact h _

theorem editChecks_changes (act : State × Answer) (x : List Part) (h : ChangesOnly s act.1 x) :
    ChangesOnly s (editChecks s p act).1 x := by
  apply memberOnly_changes
  split
  · exact ChangesOnly.refl s x
  · exact h

theorem onLease_changes (b : Byte) (act : SlotId → Lease → State × Answer) (x : List Part)
    (h : ∀ n l, ChangesOnly s (act n l).1 x) : ChangesOnly s (onLease s p b act).1 x := by
  unfold onLease
  split
  · exact ChangesOnly.refl s x
  · split
    · exact ChangesOnly.refl s x
    · exact h _ _

/-! ## Lane Unit and Message Store -/

theorem openLane_changes (b : List Byte) : ChangesOnly s (openLane s p b).1 [.lanes] := by
  unfold openLane
  split
  · apply laneChecks_changes
    intro l
    repeat' split
    all_goals first | exact ChangesOnly.refl s _ | exact s.modLane_changes l _
  · exact ChangesOnly.refl s _

theorem closeLane_changes (b : List Byte) : ChangesOnly s (closeLane s p b).1 [.lanes] := by
  unfold closeLane
  split
  · apply laneChecks_changes
    intro l
    dsimp only
    repeat' split
    all_goals first | exact ChangesOnly.refl s _ | exact s.modLane_changes l _
  · exact ChangesOnly.refl s _

theorem purgeLane_changes (b : List Byte) : ChangesOnly s (purgeLane s p b).1 [.lanes, .mst, .rpt, .att] := by
  unfold purgeLane
  split
  · apply laneChecks_changes
    intro l
    dsimp only
    repeat' split
    all_goals first
      | exact ChangesOnly.refl s _
      | exact (s.purge_changes l).comp ((State.modLane_changes _ l _).mono (by simp))
  · exact ChangesOnly.refl s _

theorem laneInfo_changes (b : List Byte) (x : List Part) : ChangesOnly s (laneInfo s p b).1 x := by
  unfold laneInfo
  split
  · apply laneChecks_changes
    intro l
    exact ChangesOnly.refl s _
  · exact ChangesOnly.refl s _

theorem State.allocate_changes (a : Allocation) : ChangesOnly s (s.allocate a).1 [.mst, .lanes] := by
  unfold State.allocate
  split
  · exact (s.modRefusals_changes _ _).mono (by simp)
  · exact ((s.grant_changes _ a).mono (by simp)).comp ((State.modLane_changes _ _ _).mono (by simp))

theorem send_changes (b : List Byte) : ChangesOnly s (send s p b).1 [.mst, .lanes] := by
  unfold send
  split
  · split
    · exact ChangesOnly.refl s _
    · apply laneChecks_changes
      intro l
      dsimp only
      repeat' split
      all_goals first | exact ChangesOnly.refl s _ | exact s.allocate_changes _
  · exact ChangesOnly.refl s _

/-! ## Plan Coordinator -/

theorem propose_changes (b : List Byte) : ChangesOnly s (propose s p b).1 [.plan, .att] := by
  unfold propose
  split
  · apply memberOnly_changes
    repeat' split
    all_goals first | exact ChangesOnly.refl s _ | exact s.openProposal_changes p
  · exact ChangesOnly.refl s _

theorem vote_changes (b : List Byte) : ChangesOnly s (vote s p b).1 [.plan, .att] := by
  unfold vote
  split
  · apply memberElse_changes
    repeat' split
    all_goals first | exact ChangesOnly.refl s _ | exact s.castVote_changes _ p _
  · exact ChangesOnly.refl s _

theorem withdraw_changes (b : List Byte) : ChangesOnly s (withdraw s p b).1 [.plan, .att] := by
  unfold withdraw
  split
  · apply memberElse_changes
    repeat' split
    all_goals first | exact ChangesOnly.refl s _ | exact s.decidePlan_changes _ _
  · exact ChangesOnly.refl s _

theorem planStatus_changes (b : List Byte) (x : List Part) : ChangesOnly s (planStatus s b).1 x := by
  unfold planStatus
  split
  · split <;> exact ChangesOnly.refl s _
  · exact ChangesOnly.refl s _

/-! ## Calendar Store -/

theorem readEntry_changes (b : List Byte) (x : List Part) : ChangesOnly s (readEntry s b).1 x := by
  unfold readEntry
  repeat' split
  all_goals exact ChangesOnly.refl s _

theorem readHeader_changes (b : List Byte) (x : List Part) : ChangesOnly s (readHeader s b).1 x := by
  unfold readHeader
  repeat' split
  all_goals exact ChangesOnly.refl s _

theorem claim_changes (b : List Byte) : ChangesOnly s (claim s p b).1 [.cal] := by
  unfold claim
  split
  · apply editChecks_changes
    repeat' split
    all_goals first | exact ChangesOnly.refl s _ | exact s.putEntry_changes _ _
  · exact ChangesOnly.refl s _

theorem writeEntry_changes (b : List Byte) : ChangesOnly s (writeEntry s p b).1 [.cal] := by
  unfold writeEntry
  split
  · apply memberOnly_changes
    repeat' split
    all_goals first | exact ChangesOnly.refl s _ | exact s.putEntry_changes _ _
  · exact ChangesOnly.refl s _

theorem clearEntry_changes (b : List Byte) : ChangesOnly s (clearEntry s p b).1 [.cal] := by
  unfold clearEntry
  split
  · apply editChecks_changes
    repeat' split
    all_goals first | exact ChangesOnly.refl s _ | exact s.putEntry_changes _ _
  · exact ChangesOnly.refl s _

theorem disown_changes (b : List Byte) : ChangesOnly s (disown s p b).1 [.cal] := by
  unfold disown
  split
  · apply editChecks_changes
    repeat' split
    all_goals first | exact ChangesOnly.refl s _ | exact s.putEntry_changes _ _
  · exact ChangesOnly.refl s _

theorem State.frameInSetup_changes (h : Header) : ChangesOnly s (s.frameInSetup h) [.cal, .mbc, .att] := by
  have h1 := (s.setShadowHeader_changes h).mono (z := [.cal, .mbc, .att]) (by simp)
  unfold State.frameInSetup
  split
  · exact h1
  · exact h1.comp ((State.clearReady_changes _).mono (by simp))

theorem setFrame_changes (b : List Byte) : ChangesOnly s (setFrame s p b).1 [.cal, .mbc, .att] := by
  unfold setFrame
  split
  · dsimp only
    repeat' split
    all_goals first
      | exact ChangesOnly.refl s _
      | exact (s.setShadowHeader_changes _).mono (by simp)
      | exact s.frameInSetup_changes _
  · exact ChangesOnly.refl s _

/-! ## Receive Unit, Report Unit and Attention Unit -/

theorem replyContent_fst (n : SlotId) (d : DescId) : (replyContent s p n d).1 = s := by
  unfold replyContent
  split <;> rfl

theorem fetch_changes (b : List Byte) : ChangesOnly s (fetch s p b).1 [.rx, .mst] := by
  unfold fetch
  split
  · apply memberOnly_changes
    repeat' split
    all_goals first
      | exact ChangesOnly.refl s _
      | (rw [replyContent_fst]; exact s.grantLease_changes p _ _)
  · exact ChangesOnly.refl s _

theorem reread_changes (b : List Byte) (x : List Part) : ChangesOnly s (reread s p b).1 x := by
  unfold reread
  split
  · apply memberOnly_changes
    apply onLease_changes
    intro n l
    rw [replyContent_fst]
    exact ChangesOnly.refl s _
  · exact ChangesOnly.refl s _

theorem ack_changes (b : List Byte) : ChangesOnly s (ack s p b).1 [.rx, .mst, .rpt, .att] := by
  unfold ack
  split
  · apply memberOnly_changes
    apply onLease_changes
    intro n l
    exact ((s.endLease_changes p n .settled).mono (by simp)).comp ((State.settle_changes _ _ p _).mono (by simp))
  · exact ChangesOnly.refl s _

theorem returnLease_changes (b : List Byte) : ChangesOnly s (returnLease s p b).1 [.rx, .mst, .rpt, .att] := by
  unfold returnLease
  split
  · apply memberOnly_changes
    split
    · apply onLease_changes
      intro n l
      exact s.endWithoutAck_changes p n _ _ _
    · exact ChangesOnly.refl s _
  · exact ChangesOnly.refl s _

theorem getReport_changes (b : List Byte) : ChangesOnly s (getReport s p b).1 [.rpt] := by
  unfold getReport
  split
  · apply memberOnly_changes
    split
    · exact ChangesOnly.refl s _
    · exact s.modRpt_changes p _
  · exact ChangesOnly.refl s _

theorem getEvents_changes (b : List Byte) : ChangesOnly s (getEvents s p b).1 [.att] := by
  unfold getEvents
  split
  · exact s.modAtt_changes p _
  · exact ChangesOnly.refl s _

theorem clearEvents_changes (b : List Byte) : ChangesOnly s (clearEvents s p b).1 [.att] := by
  unfold clearEvents
  split
  · dsimp only
    repeat' split
    all_goals first | exact ChangesOnly.refl s _ | exact s.modAtt_changes p _
  · exact ChangesOnly.refl s _

theorem setEventMask_changes (b : List Byte) : ChangesOnly s (setEventMask s p b).1 [.att] := by
  unfold setEventMask
  repeat' split
  all_goals first | exact ChangesOnly.refl s _ | exact s.modAtt_changes p _

theorem State.clearBlockCounters_changes : ChangesOnly s (s.clearBlockCounters p) [.mst, .rx, .rpt] := by
  unfold State.clearBlockCounters
  refine ChangesOnly.comp ?_ ((State.modRpt_changes _ p _).mono (by simp))
  refine ChangesOnly.comp ?_ ((State.modRx_changes _ p _).mono (by simp))
  exact (s.modRefusals_changes p _).mono (by simp)

theorem State.clearCounters_changes : ChangesOnly s (s.clearCounters p) [.mst, .rx, .rpt, .link] :=
  ((s.clearBlockCounters_changes p).mono (by simp)).comp ((State.modLink_changes _ p _).mono (by simp))

theorem readCounters_changes (b : List Byte) : ChangesOnly s (readCounters s p b).1 [.mst, .rx, .rpt, .link] := by
  unfold readCounters
  repeat' split
  all_goals first | exact ChangesOnly.refl s _ | exact s.clearCounters_changes p

/-! ## Membership Controller and Host Link Unit -/

theorem status_changes (b : List Byte) (x : List Part) : ChangesOnly s (status s p b).1 x := by
  unfold status
  split <;> exact ChangesOnly.refl s _

theorem State.setParams_changes (w : Params) : ChangesOnly s (s.setParams p w) [.mbc] := by
  intro x hx
  cases x <;> first | rfl | simp at hx

theorem State.writeParams_changes (w : Params) : ChangesOnly s (s.writeParams p w).1 [.mbc, .att] := by
  unfold State.writeParams
  split
  · exact ChangesOnly.refl s _
  · exact ((s.setParams_changes p w).mono (by simp)).comp (State.clearReady_changes _)

theorem State.writeDeadline_changes (n : Nat) : ChangesOnly s (s.writeDeadline n).1 [.mbc, .att] := by
  unfold State.writeDeadline
  split
  · exact ChangesOnly.refl s _
  · refine ChangesOnly.comp ?_ (State.clearReady_changes _)
    intro x hx
    cases x <;> first | rfl | simp at hx

theorem setQuota_changes (b : List Byte) : ChangesOnly s (setQuota s p b).1 [.mbc, .att] := by
  unfold setQuota
  split
  · dsimp only
    repeat' split
    all_goals first | exact ChangesOnly.refl s _ | exact s.writeParams_changes p _
  · exact ChangesOnly.refl s _

theorem setRxq_changes (b : List Byte) : ChangesOnly s (setRxq s p b).1 [.mbc, .att] := by
  unfold setRxq
  split
  · dsimp only
    repeat' split
    all_goals first | exact ChangesOnly.refl s _ | exact s.writeParams_changes p _
  · exact ChangesOnly.refl s _

theorem setLease_changes (b : List Byte) : ChangesOnly s (setLease s p b).1 [.mbc, .att] := by
  unfold setLease
  split
  · dsimp only
    repeat' split
    all_goals first | exact ChangesOnly.refl s _ | exact s.writeParams_changes p _
  · exact ChangesOnly.refl s _

theorem setDeadline_changes (b : List Byte) : ChangesOnly s (setDeadline s b).1 [.mbc, .att] := by
  unfold setDeadline
  repeat' split
  all_goals first | exact ChangesOnly.refl s _ | exact s.writeDeadline_changes _

theorem ready_changes (b : List Byte) : ChangesOnly s (ready s p b).1 runParts := by
  unfold ready
  split
  · split
    · exact ChangesOnly.refl s _
    · have h1 : ChangesOnly s (if s.portState p = .offline then s.setPort p .ready else s) runParts := by
        split
        · exact (s.setPort_changes p .ready).mono (by simp [runParts])
        · exact ChangesOnly.refl s _
      have h2 : ∀ (t : State) (c : Prop) [Decidable c], ChangesOnly s t runParts →
          ChangesOnly s (if c then t.startRun else t) runParts := by
        intro t c _ ht
        split
        · exact ht.comp (State.startRun_changes t)
        · exact ht
      exact h2 _ _ h1
  · exact ChangesOnly.refl s _

theorem unready_changes (b : List Byte) : ChangesOnly s (unready s p b).1 [.mbc] := by
  unfold unready
  split
  · split
    · exact ChangesOnly.refl s _
    · dsimp only [reply]
      split
      · exact s.setPort_changes p .offline
      · exact ChangesOnly.refl s _
  · exact ChangesOnly.refl s _

theorem join_changes (b : List Byte) : ChangesOnly s (join s p b).1 [.mbc, .att] := by
  unfold join
  repeat' split
  all_goals first
    | exact ChangesOnly.refl s _
    | exact ((s.setPort_changes p .online).mono (by simp)).comp ((State.raiseAll_changes _ _ _).mono (by simp))

theorem leave_act_changes (b : List Byte) : ChangesOnly s (leave s p b).1 leaveParts := by
  unfold leave
  repeat' split
  all_goals first | exact ChangesOnly.refl s _ | exact s.leave_changes p

theorem State.resetPort_changes : ChangesOnly s (s.resetPort p) (.link :: leaveParts) := by
  unfold State.resetPort
  refine ChangesOnly.comp ?_ ((State.modAtt_changes _ p _).mono (by simp [leaveParts]))
  refine ChangesOnly.comp ?_ ((State.modLink_changes _ p _).mono (by simp))
  refine ChangesOnly.comp ?_ ((State.modRx_changes _ p _).mono (by simp [leaveParts]))
  refine ChangesOnly.comp ?_ ((State.clearBlockCounters_changes _ p).mono (by simp [leaveParts]))
  unfold State.resetMembership
  split
  · exact (s.leave_changes p).mono (by simp [leaveParts])
  · exact (s.setPort_changes p _).mono (by simp [leaveParts])
  · exact ChangesOnly.refl s _
  · exact ChangesOnly.refl s _

theorem portReset_changes (b : List Byte) : ChangesOnly s (portReset s p b).1 (.link :: leaveParts) := by
  unfold portReset
  split
  · exact s.resetPort_changes p
  · exact ChangesOnly.refl s _

theorem repeatLast_changes (b : List Byte) (x : List Part) : ChangesOnly s (repeatLast s p b).1 x := by
  unfold repeatLast
  repeat' split
  all_goals exact ChangesOnly.refl s _

/-! ## Every command and happening -/

/-- The parts some command of Table 11-14 can change. -/
def commandParts : List Part := .link :: leaveParts

theorem command_changes {i : Instr} (act : State → State × Answer) (h : ChangesOnly s (act s).1 commandParts) :
    ∃ t, command i p s act = .next t ∧ ChangesOnly s t commandParts := by
  unfold command
  split
  · exact ⟨_, rfl, h.comp ((State.answer_changes _ p _).mono (by simp [commandParts]))⟩
  · exact ⟨_, rfl, ChangesOnly.refl s _⟩

/-- Every command of Table 11-14 completes, and changes neither the pins, nor the queue, nor the free choices. -/
theorem exec_command_changes (i : Instr) (h : i.command? ≠ none) :
    ∃ t, exec i s = .next t ∧ ChangesOnly s t commandParts := by
  cases i <;> simp only [Instr.command?, ne_eq, reduceCtorEq, not_false_eq_true, not_true_eq_false] at h
  case status p b => exact command_changes s p (fun s => Sys2Proof.Machine.status s p b) (status_changes s p b _)
  case repeatLast p b => exact command_changes s p (fun s => Sys2Proof.Machine.repeatLast s p b) (repeatLast_changes s p b _)
  case portReset p b => exact command_changes s p (fun s => Sys2Proof.Machine.portReset s p b) (portReset_changes s p b)
  case readCounters p b => exact command_changes s p (fun s => Sys2Proof.Machine.readCounters s p b) ((readCounters_changes s p b).mono (z := commandParts) (by simp [commandParts, leaveParts]))
  case setQuota p b => exact command_changes s p (fun s => Sys2Proof.Machine.setQuota s p b) ((setQuota_changes s p b).mono (z := commandParts) (by simp [commandParts, leaveParts]))
  case setRxq p b => exact command_changes s p (fun s => Sys2Proof.Machine.setRxq s p b) ((setRxq_changes s p b).mono (z := commandParts) (by simp [commandParts, leaveParts]))
  case setLease p b => exact command_changes s p (fun s => Sys2Proof.Machine.setLease s p b) ((setLease_changes s p b).mono (z := commandParts) (by simp [commandParts, leaveParts]))
  case setDeadline p b => exact command_changes s p (fun s => Sys2Proof.Machine.setDeadline s b) ((setDeadline_changes s b).mono (z := commandParts) (by simp [commandParts, leaveParts]))
  case setFrame p b => exact command_changes s p (fun s => Sys2Proof.Machine.setFrame s p b) ((setFrame_changes s p b).mono (z := commandParts) (by simp [commandParts, leaveParts]))
  case ready p b => exact command_changes s p (fun s => Sys2Proof.Machine.ready s p b) ((ready_changes s p b).mono (z := commandParts) (by simp [commandParts, leaveParts, runParts, slotParts]))
  case unready p b => exact command_changes s p (fun s => Sys2Proof.Machine.unready s p b) ((unready_changes s p b).mono (z := commandParts) (by simp [commandParts, leaveParts]))
  case join p b => exact command_changes s p (fun s => Sys2Proof.Machine.join s p b) ((join_changes s p b).mono (z := commandParts) (by simp [commandParts, leaveParts]))
  case leave p b => exact command_changes s p (fun s => Sys2Proof.Machine.leave s p b) ((leave_act_changes s p b).mono (z := commandParts) (by simp [commandParts, leaveParts]))
  case openLane p b => exact command_changes s p (fun s => Sys2Proof.Machine.openLane s p b) ((openLane_changes s p b).mono (z := commandParts) (by simp [commandParts, leaveParts]))
  case closeLane p b => exact command_changes s p (fun s => Sys2Proof.Machine.closeLane s p b) ((closeLane_changes s p b).mono (z := commandParts) (by simp [commandParts, leaveParts]))
  case purgeLane p b => exact command_changes s p (fun s => Sys2Proof.Machine.purgeLane s p b) ((purgeLane_changes s p b).mono (z := commandParts) (by simp [commandParts, leaveParts]))
  case laneInfo p b => exact command_changes s p (fun s => Sys2Proof.Machine.laneInfo s p b) (laneInfo_changes s p b _)
  case send p b => exact command_changes s p (fun s => Sys2Proof.Machine.send s p b) ((send_changes s p b).mono (z := commandParts) (by simp [commandParts, leaveParts]))
  case fetch p b => exact command_changes s p (fun s => Sys2Proof.Machine.fetch s p b) ((fetch_changes s p b).mono (z := commandParts) (by simp [commandParts, leaveParts]))
  case reread p b => exact command_changes s p (fun s => Sys2Proof.Machine.reread s p b) (reread_changes s p b _)
  case ack p b => exact command_changes s p (fun s => Sys2Proof.Machine.ack s p b) ((ack_changes s p b).mono (z := commandParts) (by simp [commandParts, leaveParts]))
  case returnLease p b => exact command_changes s p (fun s => Sys2Proof.Machine.returnLease s p b) ((returnLease_changes s p b).mono (z := commandParts) (by simp [commandParts, leaveParts]))
  case getReport p b => exact command_changes s p (fun s => Sys2Proof.Machine.getReport s p b) ((getReport_changes s p b).mono (z := commandParts) (by simp [commandParts, leaveParts]))
  case readEntry p b => exact command_changes s p (fun s => Sys2Proof.Machine.readEntry s b) (readEntry_changes s b _)
  case claim p b => exact command_changes s p (fun s => Sys2Proof.Machine.claim s p b) ((claim_changes s p b).mono (z := commandParts) (by simp [commandParts, leaveParts]))
  case writeEntry p b => exact command_changes s p (fun s => Sys2Proof.Machine.writeEntry s p b) ((writeEntry_changes s p b).mono (z := commandParts) (by simp [commandParts, leaveParts]))
  case clearEntry p b => exact command_changes s p (fun s => Sys2Proof.Machine.clearEntry s p b) ((clearEntry_changes s p b).mono (z := commandParts) (by simp [commandParts, leaveParts]))
  case disown p b => exact command_changes s p (fun s => Sys2Proof.Machine.disown s p b) ((disown_changes s p b).mono (z := commandParts) (by simp [commandParts, leaveParts]))
  case readHeader p b => exact command_changes s p (fun s => Sys2Proof.Machine.readHeader s b) (readHeader_changes s b _)
  case propose p b => exact command_changes s p (fun s => Sys2Proof.Machine.propose s p b) ((propose_changes s p b).mono (z := commandParts) (by simp [commandParts, leaveParts]))
  case vote p b => exact command_changes s p (fun s => Sys2Proof.Machine.vote s p b) ((vote_changes s p b).mono (z := commandParts) (by simp [commandParts, leaveParts]))
  case withdraw p b => exact command_changes s p (fun s => Sys2Proof.Machine.withdraw s p b) ((withdraw_changes s p b).mono (z := commandParts) (by simp [commandParts, leaveParts]))
  case planStatus p b => exact command_changes s p (fun s => Sys2Proof.Machine.planStatus s b) (planStatus_changes s b _)
  case getEvents p b => exact command_changes s p (fun s => Sys2Proof.Machine.getEvents s p b) ((getEvents_changes s p b).mono (z := commandParts) (by simp [commandParts, leaveParts]))
  case clearEvents p b => exact command_changes s p (fun s => Sys2Proof.Machine.clearEvents s p b) ((clearEvents_changes s p b).mono (z := commandParts) (by simp [commandParts, leaveParts]))
  case setEventMask p b => exact command_changes s p (fun s => Sys2Proof.Machine.setEventMask s p b) ((setEventMask_changes s p b).mono (z := commandParts) (by simp [commandParts, leaveParts]))

end Sys2Proof.Machine
end

