-- ==== Sys2Proof/Laws/Memory.lean ====
section
/-! SUPPORT. The buffer pool: reading after writing, and the canonical form, which every operation on the pool keeps. -/

namespace Sys2Proof.Machine

open Sys2Proof

/-- Every cell of a pool has a key above a bound. -/
def Memory.above (lo : Nat) (m : Memory) : Prop := ∀ c ∈ m, lo < c.1

/-- The canonical form of a pool that lists a first cell. -/
theorem Memory.wf_cons (k : Nat) (b : Byte) (m : Memory) :
    Memory.wf ((k, b) :: m) = true ↔ b ≠ Memory.blank ∧ Memory.above k m ∧ Memory.wf m = true := by
  induction m generalizing k b with
  | nil => simp [Memory.wf, Memory.above]
  | cons c m ih =>
    obtain ⟨k', b'⟩ := c
    have ih' := ih k' b'
    simp only [Memory.wf, Bool.and_eq_true, bne_iff_ne, ne_eq, decide_eq_true_eq]
    rw [ih']
    constructor
    · rintro ⟨⟨h1, h2⟩, h3, h4, h5⟩
      refine ⟨h1, ?_, h3, h4, h5⟩
      intro c hc
      rcases List.mem_cons.mp hc with rfl | hc
      · exact h2
      · exact Nat.lt_trans h2 (h4 c hc)
    · rintro ⟨h1, h2, h3, h4, h5⟩
      exact ⟨⟨h1, h2 (k', b') (by simp)⟩, h3, h4, h5⟩

/-- A byte below every listed key reads as a blank byte. -/
theorem Memory.read_below (m : Memory) (lo a : Nat) (h : Memory.above lo m) (ha : a ≤ lo) : m.read a = Memory.blank := by
  induction m with
  | nil => rfl
  | cons c m ih =>
    obtain ⟨k, b⟩ := c
    have hk : lo < k := h (k, b) (by simp)
    rw [Memory.read, if_neg (by omega)]
    exact ih fun c hc => h c (List.mem_cons_of_mem _ hc)

theorem Memory.read_consCell_ne (a x : Nat) (b : Byte) (m : Memory) (h : x ≠ a) :
    (Memory.consCell a b m).read x = m.read x := by
  unfold Memory.consCell
  split
  · rfl
  · rw [Memory.read, if_neg (Ne.symm h)]

theorem Memory.read_consCell (a : Nat) (b : Byte) (m : Memory) (h : m.read a = Memory.blank) :
    (Memory.consCell a b m).read a = b := by
  unfold Memory.consCell
  split
  · next hb => rw [h, hb]
  · rw [Memory.read, if_pos rfl]

/-- A write leaves every other byte as it was. -/
theorem Memory.read_write_ne (m : Memory) (a x : Nat) (b : Byte) (h : x ≠ a) : (m.write a b).read x = m.read x := by
  induction m with
  | nil => exact Memory.read_consCell_ne a x b [] h
  | cons c m ih =>
    obtain ⟨k, v⟩ := c
    unfold Memory.write
    split
    · exact Memory.read_consCell_ne a x b _ h
    · split
      · next hk => rw [Memory.read_consCell_ne a x b _ h, Memory.read, if_neg (by omega)]
      · rw [Memory.read, Memory.read, ih]

/-- A written byte reads back. -/
theorem Memory.read_write (m : Memory) (a : Nat) (b : Byte) (h : Memory.wf m = true) : (m.write a b).read a = b := by
  induction m with
  | nil => exact Memory.read_consCell a b [] rfl
  | cons c m ih =>
    obtain ⟨k, v⟩ := c
    obtain ⟨_, h2, h3⟩ := (Memory.wf_cons k v m).mp h
    unfold Memory.write
    split
    · next hk =>
      apply Memory.read_consCell
      rw [Memory.read, if_neg (by omega)]
      exact Memory.read_below m k a h2 (by omega)
    · split
      · next hk => exact Memory.read_consCell a b m (Memory.read_below m k a h2 (by omega))
      · next h4 h5 => rw [Memory.read, if_neg (by omega), ih h3]

/-- Every cell a write leaves is an old one or the written one. -/
theorem Memory.mem_write (m : Memory) (a : Nat) (b : Byte) (c : Host.Cell) (h : c ∈ m.write a b) : c ∈ m ∨ c.1 = a := by
  have hcons : ∀ m' : Memory, c ∈ Memory.consCell a b m' → c ∈ m' ∨ c.1 = a := by
    intro m' hc
    unfold Memory.consCell at hc
    split at hc
    · exact Or.inl hc
    · rcases List.mem_cons.mp hc with rfl | hc
      · exact Or.inr rfl
      · exact Or.inl hc
  induction m with
  | nil => exact hcons [] h
  | cons d m ih =>
    obtain ⟨k, v⟩ := d
    unfold Memory.write at h
    split at h
    · exact hcons _ h
    · split at h
      · rcases hcons _ h with h | h
        · exact Or.inl (List.mem_cons_of_mem _ h)
        · exact Or.inr h
      · rcases List.mem_cons.mp h with rfl | h
        · exact Or.inl (by simp)
        · rcases ih h with h | h
          · exact Or.inl (List.mem_cons_of_mem _ h)
          · exact Or.inr h

theorem Memory.wf_consCell (a : Nat) (b : Byte) (m : Memory) (h : Memory.wf m = true) (ha : Memory.above a m) :
    Memory.wf (Memory.consCell a b m) = true := by
  unfold Memory.consCell
  split
  · exact h
  · next hb => exact (Memory.wf_cons a b m).mpr ⟨hb, ha, h⟩

/-- A write keeps the canonical form. -/
theorem Memory.wf_write (m : Memory) (a : Nat) (b : Byte) (h : Memory.wf m = true) : Memory.wf (m.write a b) = true := by
  induction m with
  | nil => exact Memory.wf_consCell a b [] rfl (by simp [Memory.above])
  | cons c m ih =>
    obtain ⟨k, v⟩ := c
    obtain ⟨h1, h2, h3⟩ := (Memory.wf_cons k v m).mp h
    unfold Memory.write
    split
    · next hk =>
      apply Memory.wf_consCell a b _ h
      intro c hc
      rcases List.mem_cons.mp hc with rfl | hc
      · exact hk
      · exact Nat.lt_trans hk (h2 c hc)
    · split
      · next hk =>
        apply Memory.wf_consCell a b _ h3
        rw [hk]
        exact h2
      · next h4 h5 =>
        refine (Memory.wf_cons k v _).mpr ⟨h1, ?_, ih h3⟩
        intro c hc
        rcases Memory.mem_write m a b c hc with hc | hc
        · exact h2 c hc
        · omega

/-- Storing a message keeps the canonical form. -/
theorem Memory.wf_store (f : List BufId) (i : Nat) (data : List Byte) (m : Memory) (h : Memory.wf m = true) :
    Memory.wf (Memory.store f i data m) = true := by
  induction data generalizing i m with
  | nil => exact h
  | cons b data ih => exact ih _ _ (Memory.wf_write m _ b h)

/-- Every data byte lies inside the pool's 32768 bytes. -/
theorem dataKey_lt (f : List BufId) (i : Nat) : dataKey f i < 32768 := by
  unfold dataKey bufferBytes
  have := (f.getD (i / 64) 0).isLt
  omega

/-- Storing a message lists no key outside the pool. -/
theorem Memory.store_bound (f : List BufId) (i : Nat) (data : List Byte) (m : Memory) (h : ∀ c ∈ m, c.1 < 32768) :
    ∀ c ∈ Memory.store f i data m, c.1 < 32768 := by
  induction data generalizing i m with
  | nil => exact h
  | cons b data ih =>
    refine ih _ _ fun c hc => ?_
    rcases Memory.mem_write m _ b c hc with hc | hc
    · exact h c hc
    · rw [hc]
      exact dataKey_lt f i

/-- Storing a message leaves every byte but its own data bytes as it was. -/
theorem Memory.read_store_ne (f : List BufId) (i : Nat) (data : List Byte) (m : Memory) (a : Nat)
    (h : ∀ j, j < data.length → a ≠ dataKey f (i + j)) : (Memory.store f i data m).read a = m.read a := by
  induction data generalizing i m with
  | nil => rfl
  | cons b data ih =>
    have h0 : a ≠ dataKey f i := h 0 (by simp)
    rw [Memory.store, ih, Memory.read_write_ne _ _ _ _ h0]
    intro j hj
    have := h (j + 1) (by simp; omega)
    rw [show i + 1 + j = i + (j + 1) by omega]
    exact this

/-- In fragments that name no buffer twice, no two data bytes share a place. -/
theorem dataKey_inj (f : List BufId) (hf : f.Nodup) (i j : Nat) (hi : i < 64 * f.length) (hj : j < 64 * f.length)
    (h : dataKey f i = dataKey f j) : i = j := by
  unfold dataKey bufferBytes at h
  have h1 : i / 64 < f.length := by omega
  have h2 : j / 64 < f.length := by omega
  rw [List.getD_eq_getElem _ _ h1, List.getD_eq_getElem _ _ h2] at h
  have h3 : f[i / 64] = f[j / 64] := Fin.ext (by omega)
  have h4 : i / 64 = j / 64 := (List.Nodup.getElem_inj_iff hf).mp h3
  omega

/-- A data byte that was stored is read back. -/
theorem Memory.read_store (f : List BufId) (hf : f.Nodup) (i : Nat) (data : List Byte) (m : Memory)
    (hm : Memory.wf m = true) (hl : i + data.length ≤ 64 * f.length) (j : Nat) (hj : j < data.length) :
    (Memory.store f i data m).read (dataKey f (i + j)) = data[j] := by
  induction data generalizing i j m with
  | nil => simp at hj
  | cons b data ih =>
    simp only [List.length_cons] at hl hj
    rw [Memory.store]
    cases j with
    | zero =>
      rw [Memory.read_store_ne]
      · exact Memory.read_write m _ b hm
      · intro j hj h
        have := dataKey_inj f hf _ _ (by omega) (by omega) h
        omega
    | succ j =>
      rw [show i + (j + 1) = i + 1 + j by omega, ih (i + 1) _ (Memory.wf_write m _ b hm) (by omega) j (by omega)]
      rfl

/-- R12: a message that was stored is loaded back whole. -/
theorem Memory.load_store (f : List BufId) (hf : f.Nodup) (data : List Byte) (m : Memory) (hm : Memory.wf m = true)
    (hl : data.length ≤ 64 * f.length) : Memory.load f data.length (Memory.store f 0 data m) = data := by
  apply List.ext_getElem
  · simp [Memory.load]
  · intro i h1 h2
    have := Memory.read_store f hf 0 data m hm (by omega) i h2
    simpa [Memory.load] using this

/-- The pool right after reset has the canonical form. -/
theorem reset_pool_wf : Memory.wf State.reset.mst.pool = true := rfl

end Sys2Proof.Machine
end

