-- ==== Sys2Proof/WellFormed.lean ====
section
/-! DEFINITION. Which commands and happenings can be put to the part at all: the checks a link makes on a frame's
length before any block sees it (R167, Table 11-12) and the row-defining length of LENGTH_ABOVE_272. -/

namespace Sys2Proof

/-- The longest payload a link accepts (R167). -/
def maxPayload : Nat := 272

/-- A command's payload has a length the link accepts; a received request likewise; the length that makes a
LENGTH_ABOVE_272 is above 272 and fits the two length bytes; a window that ends RECEIVING or DISCARDING may have held
any number of bytes. -/
def Instr.wellFormed (i : Instr) : Bool :=
  match i with
  | .requestReceived _ _ _ payload _ => payload.length ≤ maxPayload
  | .lengthAbove272 _ _ _ length => maxPayload < length && length < 65536
  | i =>
    match i.command? with
    | some (_, _, payload) => payload.length ≤ maxPayload
    | none => true

end Sys2Proof
end

