-- ==== Sys2Proof/Tests/Slice0.lean ====
section
/-! SUPPORT. The model's own tests: the smoke test of WellFormed, values the spec works out, one step of every command, and
for each statement of the obligations a state and operands that meet its hypotheses (a witness), at the bounds of its
ranges. Expected values come from the rules and worked examples of spec/, named at each test. -/

namespace Sys2Proof.Tests

-- One declaration at a time: elaborated side by side, the kernel evaluations of this file need more memory at once.
set_option Elab.async false

open Sys2Proof Sys2Proof.Machine

/-! ## The states the tests start from -/

/-- RUN with every port ONLINE, timing cycle 0, its second slot start due at 1000. -/
def up : State :=
  { State.reset with
    mbc := { State.reset.mbc with exchange := .run, ports := PerPort.fill .online }
    timer := { Timer.reset with state := .running, nextSlot := some 1000 } }

/-- RUN with port P0 alone ONLINE. -/
def alone : State := { up with mbc := { up.mbc with ports := ⟨.online, .offline, .offline, .offline⟩ } }

/-- The settings of lane 0 in the tests: owner P0, destination P1, depth 2, MISS, report mode ALL, no maximum age. -/
def settings0 : LaneSettings := ⟨.p0, ⟨false, true, false, false⟩, 2, .miss, .all, 0⟩

/-- Lane 0 given whole. -/
def withLane (st : LaneState) (t : LaneSettings) (q : List DescId) (s : State) : State :=
  { s with lanes := s.lanes.put 0 ⟨st, some t, q, LaneCounters.zero⟩ }

/-- A PENDING message of P0 on lane 0 for P1: one byte, in buffer 0. -/
def msg : Desc :=
  { state := .pending, source := .p0, lane := 0, label := 0x0201, length := 1, fragments := [0], reportMode := .all,
    submitCycle := 0, stamp := none, dest := settings0.dest, delivery := ⟨.notDest, .waiting, .notDest, .notDest⟩,
    attempts := PerPort.fill 0, outstanding := 0 }

/-- Descriptor 0 holding a message. -/
def withMsg (m : Desc) (s : State) : State :=
  { s with mst := { s.mst with
      desc := s.mst.desc.put 0 (some m), free := s.mst.free.drop 1, held := s.mst.held.set .p0 1, pool := [(0, 0x41)] } }

/-- RUN with lane 0 OPEN and empty. -/
def opened : State := withLane .opened settings0 [] up

/-- RUN with the message waiting on lane 0. -/
def waiting : State := withMsg msg (withLane .opened settings0 [0] up)

/-- The message released to P1, in a delivery state, leased `n` times. -/
def sent (v : Delivery) (n : Nat) : Desc :=
  { msg with state := .released, stamp := some ⟨0, 0⟩, delivery := ⟨.notDest, v, .notDest, .notDest⟩,
             attempts := ⟨0, n, 0, 0⟩, outstanding := 1 }

/-- RUN with the message in P1's receive queue. -/
def queued : State :=
  let s := withMsg (sent .queued 0) opened
  { s with rx := s.rx.set .p1 { s.rx.p1 with queue := [0] } }

/-- RUN with the message leased to P1 for the `n`-th time, in slot 0 with generation 1, due at 5. -/
def leased (n : Nat) : State :=
  let s := withMsg (sent .leased n) opened
  { s with rx := s.rx.set .p1 { s.rx.p1 with slots := s.rx.p1.slots.put 0 ⟨some ⟨0, 5⟩, 1, none⟩ } }

/-- RUN with P0's proposal 1 standing before P1, P2 and P3, `yes` of them agreed. -/
def proposed (yes : PortSet) : State :=
  { up with plan :=
      { up.plan with proposal := some ⟨.opened, 1, .p0, ⟨false, true, true, true⟩, yes, 4⟩, nextNumber := 2 } }

/-- RUN with a shadow entry as given, lane 0 OPEN. -/
def withEntry (i : EntryId) (e : Entry) : State := opened.putEntry i e

/-- RUN with an active entry as given. -/
def withActive (i : EntryId) (e : Entry) (s : State) : State :=
  { s with cal := s.cal.setActive (s.cal.activeBank.put i e) }

/-- The entry that releases lane 0 for P0. -/
def entry0 (burst : Nat) : Entry := ⟨some ⟨0, burst⟩, some .p0⟩

/-- RUN with one report in P0's report queue. -/
def reported : State :=
  { up with rpt := up.rpt.set .p0 ⟨[⟨0, 0, 0x0201, .purged, msg.delivery, 0, none, 0⟩], 0⟩ }

/-- P0's events: LINK_ERROR and EXCHANGE_RUN latched, EXCHANGE_RUN renewed, snapshot 1 held of both. -/
def noted : State :=
  { up with att := up.att.set .p0 ⟨0xC00, 0x400, 0x7FF, some ⟨1, 0xC00⟩, 2, true⟩ }

/-- P0's link as given. -/
def withLink (l : Link) (s : State) : State := { s with link := s.link.set .p0 l }

/-- A link whose chip-select window is open in a window state. -/
def openLink (w : Window) : Link := { Link.reset true with window := w }

/-- A STATUS request. -/
def reqStatus : Request := ⟨0x01, 1, []⟩
/-- A SET_DEADLINE request. -/
def reqDeadline : Request := ⟨0x13, 2, [5]⟩

/-- A response recorded for the STATUS request. -/
def recorded1 : LinkRecord := ⟨1, 0x01, ⟨.ok, 1, false, false, false, []⟩⟩

/-! ## What a test looks at -/

/-- The state after a command. -/
def after (i : Instr) (s : State) : State :=
  match exec i s with
  | .next t => t
  | _ => s

/-- The answer at a port's link after a command. -/
def answer (i : Instr) (p : Port) (s : State) : Option Answer := ((after i s).link.get p).answer.map (·.answer)

/-- The status a command is answered with in a state; none where the part does not take it or answers no status. -/
def outcome (x : State × Instr) : Option Status :=
  if x.1.takes x.2 then
    match x.2.command? with
    | none => none
    | some (p, _, _) =>
      match answer x.2 p x.1 with
      | some (.reply st _) => some st
      | _ => none
  else none

/-! ## WellFormed -/

/-- R167: the longest payload a link accepts is 272 bytes; one more is refused, in a command and in a received request. -/
theorem test_wellFormed_payload :
    (Instr.send .p0 (List.replicate 272 0)).wellFormed = true ∧ (Instr.send .p0 (List.replicate 273 0)).wellFormed = false ∧
      (Instr.requestReceived .p0 1 0 (List.replicate 272 0) 0).wellFormed = true ∧
      (Instr.requestReceived .p0 1 0 (List.replicate 273 0) 0).wellFormed = false := by decide +kernel

/-- R167: LENGTH_ABOVE_272 is a length above 272 that fits two bytes. -/
theorem test_wellFormed_length :
    (Instr.lengthAbove272 .p0 1 0 272).wellFormed = false ∧ (Instr.lengthAbove272 .p0 1 0 273).wellFormed = true ∧
      (Instr.lengthAbove272 .p0 1 0 65535).wellFormed = true ∧ (Instr.lengthAbove272 .p0 1 0 65536).wellFormed = false := by
  decide

/-! ## Values the spec works out -/

/-- R168: the CRC of the nine ASCII characters 123456789 is 29B1h. -/
theorem test_crc : crc16 [0x31, 0x32, 0x33, 0x34, 0x35, 0x36, 0x37, 0x38, 0x39] = 0x29B1 := by decide +kernel

/-- R12: byte 200 of a message lies in its fourth fragment, at byte 8. -/
theorem test_dataKey : dataKey [5, 6, 7, 9] 200 = 64 * 9 + 8 := by decide

/-- 10.7: SET_QUOTA with reserve 480 when 64 are reserved elsewhere is refused LIMIT. -/
theorem test_setQuota_limit :
    answer (.setQuota .p2 [0xE0, 0x01, 0xE0, 0x01]) .p2 (after (.setQuota .p0 [64, 0, 192, 0]) State.reset) =
      some (.reply .limit []) := by decide +kernel

/-- R78: a time base value is reached through the wrap of the 32-bit counter. -/
theorem test_reached_wraps : reached 0xFFFFFFF0 5 = true ∧ reached 5 0xFFFFFFF0 = false := by decide

/-- R24, Counters: a counter stays at 65535. -/
theorem test_counter_saturates : bump 0xFFFF = 0xFFFF ∧ bump 0xFFFE = 0xFFFF := by decide

/-! ## Where every reference to a descriptor is accounted for -/

theorem desc_cases (m : Desc) (s : State) (d : DescId) :
    (withMsg m s).desc d = if d = 0 then some m else s.desc d := by
  simp [withMsg, State.desc]

theorem up_desc (d : DescId) : up.desc d = none := by simp [up, State.reset, State.desc, Mst.reset]

/-- References lie only with the descriptors of a list, and each of those is lawful. -/
theorem refs_of {s : State} (ids : List DescId) (hd : ∀ d, d ∉ ids → s.desc d = none)
    (hl : ∀ l, ∀ x ∈ (s.lane l).queue, x ∈ ids) (hq : ∀ p, ∀ x ∈ (s.rx.get p).queue, x ∈ ids)
    (hs : ∀ p n l, ((s.rx.get p).slots.at n).lease = some l → l.desc ∈ ids)
    (hm : ∀ d ∈ ids, ∀ m, s.desc d = some m →
      (m.state = .pending → s.PendingLawful d m) ∧ (m.state = .released → s.ReleasedLawful d m))
    (hi : ∀ d ∈ ids, s.desc d ≠ none) : s.ReferencesLawful := by
  intro d
  by_cases h : d ∈ ids
  · exact ⟨fun e => absurd e (hi d h), hm d h⟩
  · refine ⟨fun _ => ⟨fun l => List.count_eq_zero.2 fun x => h (hl l d x), fun p =>
      ⟨List.count_eq_zero.2 fun x => h (hq p d x), List.countP_eq_zero.2 fun n _ e => ?_⟩⟩, fun m e => ?_⟩
    · unfold LeaseSlot.holds at e
      split at e
      · cases e
      · rename_i l hl'
        exact h (by simpa using (beq_iff_eq.1 e) ▸ hs p n l hl')
    · rw [hd d h] at e; cases e

theorem refs_leased : (leased 1).ReferencesLawful := by
  refine refs_of [0] (fun d h => ?_) (by decide +kernel) (fun p => by cases p <;> decide +kernel) (fun p n l h => ?_) ?_
    (by decide +kernel)
  · have := desc_cases (sent .leased 1) opened d
    rw [if_neg (by simpa using h), show opened.desc d = none from up_desc d] at this
    exact this
  · have e : ∀ n, (((leased 1).rx.get p).slots.at n).lease = none ∨
        (((leased 1).rx.get p).slots.at n).lease = some ⟨0, 5⟩ := by cases p <;> decide +kernel
    rcases e n with e | e <;> rw [e] at h <;> cases h
    decide
  · intro d h m hm
    obtain rfl : d = 0 := by simpa using h
    have hm' : some (sent .leased 1) = some m := (by simpa using desc_cases (sent .leased 1) opened 0 : _) ▸ hm
    cases hm'
    refine ⟨fun h => (by cases h), fun _ => ⟨by decide +kernel, ?_, by decide, by decide, by decide +kernel, ?_⟩⟩
    · intro p; cases p <;> decide +kernel
    · intro p; cases p <;> decide +kernel

/-- RUN with two messages of P0 waiting on lane 0, submitted at cycle 0, whose next slot releases the lane with a burst. -/
def pair (st : LaneState) (t : LaneSettings) (b : Nat) : State :=
  let s := withActive 1 (entry0 b) (withMsg msg (withLane st t [0, 1] up))
  { s with mst := { s.mst with
      desc := s.mst.desc.put 1 (some { msg with fragments := [1] }), free := s.mst.free.drop 1, held := s.mst.held.set .p0 2 } }

theorem refs_pair (st : LaneState) (t : LaneSettings) (b : Nat) : (pair st t b).ReferencesLawful := by
  have e : ∀ d, (pair st t b).desc d =
      if d = 1 then some { msg with fragments := [1] } else if d = 0 then some msg else none := by
    intro d
    have h : (pair st t b).desc d =
        if d = 1 then some { msg with fragments := [1] } else (withMsg msg (withLane st t [0, 1] up)).desc d := by
      simp [pair, withActive, State.desc]
    rw [h, desc_cases, show (withLane st t [0, 1] up).desc d = none from up_desc d]
  have hl : ∀ l, ((pair st t b).lane l).queue = if l = 0 then [0, 1] else [] := by
    intro l
    have h : (pair st t b).lane l = if l = 0 then ⟨st, some t, [0, 1], LaneCounters.zero⟩ else Lane.reset := by
      simp [pair, withActive, withMsg, withLane, up, State.reset, State.lane]
    rw [h]; split <;> rfl
  have hr : ∀ p, (pair st t b).rx.get p = Rx.reset := fun p => by cases p <;> rfl
  refine refs_of [0, 1] (fun d h => ?_) (fun l x hx => ?_) (fun p x hx => ?_) (fun p n l h => ?_) (fun d h m hm => ?_) ?_
  · simp only [List.mem_cons, List.not_mem_nil, or_false, not_or] at h
    rw [e, if_neg h.2, if_neg h.1]
  · rw [hl] at hx; split at hx
    · exact hx
    · cases hx
  · rw [hr] at hx; cases hx
  · rw [hr] at h; simp [Rx.reset, LeaseSlot.reset] at h
  · have hp : ∀ m', (m' = msg ∨ m' = { msg with fragments := [1] }) → (d = 0 ∨ d = 1) → (pair st t b).PendingLawful d m' := by
      intro m' h1 h2
      refine ⟨fun l => ?_, fun p => ⟨?_, ?_⟩, ?_, ?_, fun p => ?_⟩
      · unfold State.laneRefs
        rw [hl]
        rcases h1 with rfl | rfl <;> rcases h2 with rfl | rfl <;> by_cases c : l = 0 <;> simp [c, msg]
      · unfold State.queueRefs; rw [hr]; rfl
      · unfold State.slotRefs; rw [hr]
        exact List.countP_eq_zero.2 fun n _ => by simp [Rx.reset, LeaseSlot.reset, LeaseSlot.holds]
      all_goals rcases h1 with rfl | rfl
      all_goals first | rfl | (cases p <;> decide)
    have h2 : d = 0 ∨ d = 1 := by simpa using h
    have hm' : m = msg ∨ m = { msg with fragments := [1] } := by
      rw [e] at hm
      rcases h2 with rfl | rfl
      · left; simpa using hm.symm
      · right; simpa using hm.symm
    refine ⟨fun _ => hp m hm' h2, fun h => ?_⟩
    rcases hm' with rfl | rfl <;> cases h
  · intro d h
    have h2 : d = 0 ∨ d = 1 := by simpa using h
    rw [e]
    rcases h2 with rfl | rfl <;> simp

/-! ## Witnesses: the queue and the whole part -/

theorem witness_StepTakesFrontCommand :
    ({ up with pending := [.slotStart, .refclkStop] } : State).pending = .slotStart :: [.refclkStop] := rfl

/-- Nothing due, a slot start due, REFCLK stopped, RESET_N low: the queue is empty in each. -/
theorem witness_EmptyQueueIdles :
    up.pending = [] ∧ up.dueNow = [] ∧ { up with timer := { up.timer with timeBase := 999 } }.dueNow = [] ∧
      { up with timer := { up.timer with timeBase := 1000 } }.dueNow = [.slotStart] ∧
      { up with refclk := false }.pending = [] ∧ { up with resetLow := true }.pending = [] := by decide +kernel

theorem witness_ResetAssertAndRefclkStopHoldTime :
    ({ up with refclk := false } : State).refclk = false ∧ Instr.isReset .slotStart = false ∧
      ({ up with refclk := false } : State).pending = [] ∧
      (∃ t, exec .slotStart { up with refclk := false } = .next t) ∧ ∃ t, step { up with refclk := false } = .next t :=
  ⟨rfl, rfl, rfl, ⟨_, rfl⟩, ⟨_, rfl⟩⟩

/-- P3 DISABLED, and every port while RESET_N is low. -/
theorem witness_SilencedPortDoesNothing :
    Instr.port? (.csNFall .p3) = some .p3 ∧ (after (.resetNRelease ⟨true, true, true, false⟩) up).live .p3 = false ∧
      (after .resetNAssert up).live .p0 = false ∧ Instr.timed .slotStart = true ∧
      (after .resetNAssert up).resetLow = true := by decide +kernel

/-! ## Witnesses: the link window -/

/-- Each window state, CS_N low and high, and no byte or one byte received. -/
theorem witness_ChipSelectOpensAndEndsWindow :
    (withLink (openLink .receiving) up).live .p0 = true ∧ (up.link.get .p0).csLow = false ∧
      ((withLink (openLink .receiving) up).link.get .p0).csLow = true ∧
      ((withLink (openLink .sending) up).link.get .p0).window = .sending ∧
      ((after (.csNRise .p0 0) (withLink (openLink .receiving) up)).link.get .p0).abortedRequests = 0 ∧
      ((after (.csNRise .p0 1) (withLink (openLink .receiving) up)).link.get .p0).abortedRequests = 1 ∧
      ((after (.csNRise .p0 9) (withLink (openLink .awaiting) up)).link.get .p0).abortedRequests = 0 := by decide +kernel

/-- Lengths 272 and 273, a CRC that matches and one that does not. -/
theorem witness_UnacceptableRequestIsAnswered :
    let s := withLink (openLink .receiving) up
    s.live .p0 = true ∧ (s.link.get .p0).window = .receiving ∧ (272 : Nat) < 273 ∧
      (List.replicate 272 (0 : Byte)).length ≤ 272 ∧ 272 < (List.replicate 273 (0 : Byte)).length ∧
      (0 : Half) ≠ reqStatus.crc ∧ ((withLink (openLink .done) up).link.get .p0).window ≠ .receiving := by decide +kernel

/-- With no request executing and no record; with a record of another tag; behind an executing request. -/
theorem witness_RequestIsTakenOrWaits :
    let s := withLink (openLink .receiving) up
    let busy := withLink { openLink .receiving with executing := some reqStatus } up
    let other := withLink { openLink .receiving with record := some recorded1 } up
    s.live .p0 = true ∧ (s.link.get .p0).window = .receiving ∧ reqDeadline.payload.length ≤ 272 ∧
      (s.link.get .p0).executing = none ∧ (s.link.get .p0).record = none ∧
      (busy.link.get .p0).window = .receiving ∧ (busy.link.get .p0).executing.isSome = true ∧
      (other.link.get .p0).record = some recorded1 ∧
      ¬ (reqDeadline.tag ≠ 0 ∧ recorded1.tag = reqDeadline.tag ∧ recorded1.code = reqDeadline.code) ∧
      commandOf .p0 0x05 [] = none := by decide +kernel

/-- Nothing waiting; a request waiting that is taken; a request waiting that replays the record. -/
theorem witness_ExecutionEndRecordsAndSends :
    let l := { openLink .awaiting with executing := some reqDeadline, answer := some ⟨.reply .wrongState [], false⟩ }
    let s := withLink l up
    let queued := withLink { l with waiting := some reqStatus } up
    let replays := withLink { l with waiting := some reqDeadline } up
    s.live .p0 = true ∧ (s.link.get .p0).executing = some reqDeadline ∧
      (s.link.get .p0).answer = some ⟨.reply .wrongState [], false⟩ ∧ (s.link.get .p0).waiting = none ∧
      (queued.link.get .p0).waiting = some reqStatus ∧ reqStatus.tag ≠ reqDeadline.tag ∧
      (replays.link.get .p0).waiting = some reqDeadline ∧ reqDeadline.tag ≠ 0 ∧
      ¬ (reqDeadline.code = 0x02 ∨ reqDeadline.code = 0x03) := by decide +kernel

/-- A replay, REPEAT with a record, without one, and with a payload. -/
theorem witness_StoredResponseIsReturned :
    let s := withLink { openLink .receiving with record := some recorded1 } up
    s.live .p0 = true ∧ (s.link.get .p0).window = .receiving ∧ reqStatus.payload.length ≤ 272 ∧
      (s.link.get .p0).executing = none ∧ (s.link.get .p0).record = some recorded1 ∧ reqStatus.tag ≠ 0 ∧
      recorded1.tag = reqStatus.tag ∧ recorded1.code = reqStatus.code ∧ s.takes (.repeatLast .p0 []) = true ∧
      answer (.repeatLast .p0 []) .p0 s = some (.stored recorded1.response) ∧
      outcome (s, .repeatLast .p0 [0]) = some .badLength ∧ outcome (up, .repeatLast .p0 []) = some .empty := by
  decide +kernel

/-- A request answered and recorded: the response the record holds is the one the link sends. R158: its RUN flag is the one
formed with the answer, though the exchange is in RUN by the end of the execution; R147: its ATTENTION flag shows an event
that is enabled by then. -/
theorem test_executionEnd :
    let l := { openLink .awaiting with executing := some reqDeadline, answer := some ⟨.reply .wrongState [], false⟩ }
    let t := (after (.executionEnd .p0) (withLink l noted)).link.get .p0
    t.window = .sending ∧ t.sending = t.record.map (·.response) ∧ t.executing = none ∧
      t.record = some ⟨2, 0x13, ⟨.wrongState, 2, false, true, false, []⟩⟩ := by decide +kernel

/-- R171, R173, R177: a PORT_RESET refused BAD_LENGTH is recorded, one that was carried out is not. -/
theorem test_portReset_recorded :
    let l (st : Status) := { openLink .awaiting with executing := some ⟨3, 7, [0]⟩, answer := some ⟨.reply st [], true⟩ }
    let t (st : Status) := (after (.executionEnd .p0) (withLink (l st) up)).link.get .p0
    (t .badLength).record = some ⟨7, 3, ⟨.badLength, 7, false, false, true, []⟩⟩ ∧ (t .ok).record = none := by decide +kernel

/-! ## Witnesses: encodings -/

/-- Each code at the edge of a run of Table 11-14, and the codes beside it. -/
theorem witness_CodesRoundTrip :
    ([0x00, 0x01, 0x04, 0x05, 0x0F, 0x10, 0x14, 0x15, 0x17, 0x18, 0x1B, 0x1C, 0x1F, 0x20, 0x23, 0x24, 0x2F, 0x30, 0x35,
      0x36, 0x3F, 0x40, 0x45, 0x46, 0x47, 0x48, 0x4B, 0x4C, 0x4F, 0x50, 0x52, 0x53] : List Byte).map
        (fun c => (commandOf .p0 c []).isSome) =
      [false, true, true, false, false, true, true, false, false, true, true, false, false, true, true, false, false, true,
        true, false, false, true, true, false, false, true, true, false, false, true, true, false] := by decide +kernel

/-- R178: slot 3, generation 15 is byte 3Fh; ports P0 and P2 are 05h. -/
theorem test_fields :
    handleByte 3 15 = 0x3F ∧ handleOf 0x3F = some (3, 15) ∧ handleOf 0x40 = none ∧
      portSetByte ⟨true, false, true, false⟩ = 0x05 ∧ portSetOf 0x10 = none := by decide +kernel

theorem witness_ResponseFrameDeterminesResponse :
    (⟨.ok, 1, false, false, false, [7]⟩ : Response).bytes = (⟨.ok, 1, false, false, false, [7]⟩ : Response).bytes := rfl

/-! ## Witnesses: Membership Controller -/

theorem witness_StatusReportsPart :
    [(up, Instr.status .p0 []), (State.reset, .status .p3 []), (up, .status .p0 [0])].map outcome =
      [some .ok, some .ok, some .badLength] := by decide +kernel

/-- The bounds of Table 10-3: reserve 512 and 513, ceiling 1, 0, 512 and 513, reserve at and above the ceiling. -/
theorem witness_SetupWritesCheckAndSet_quota :
    [(State.reset, Instr.setQuota .p0 [0, 0, 1, 0]), (State.reset, .setQuota .p0 [0, 0, 0, 0]),
      (State.reset, .setQuota .p0 [0, 2, 0, 2]), (State.reset, .setQuota .p0 [1, 2, 0, 2]),
      (State.reset, .setQuota .p0 [0, 0, 1, 2]), (State.reset, .setQuota .p0 [2, 0, 1, 0]),
      (up, .setQuota .p0 [0, 0, 1, 0]), (State.reset, .setQuota .p0 [0, 0, 1])].map outcome =
      [some .ok, some .badArgument, some .ok, some .badArgument, some .badArgument, some .badArgument, some .wrongState,
        some .badLength] := by decide +kernel

/-- The bounds of Table 10-3: depth 3, 4, 32 and 33, watermark 0, 1, the depth and above it; lease time 0, 1, 1000 and 1001,
redelivery 7 and 8; deadline 0, 1, 15 and 16. -/
theorem witness_SetupWritesCheckAndSet :
    [(State.reset, Instr.setRxq .p0 [3, 1]), (State.reset, .setRxq .p0 [4, 4]), (State.reset, .setRxq .p0 [4, 5]),
      (State.reset, .setRxq .p0 [32, 1]), (State.reset, .setRxq .p0 [33, 1]), (State.reset, .setRxq .p0 [4, 0]),
      (up, .setRxq .p0 [4, 4]), (State.reset, .setRxq .p0 [4]), (State.reset, .setLease .p0 [0, 0, 0]),
      (State.reset, .setLease .p0 [1, 0, 0]), (State.reset, .setLease .p0 [0xE8, 3, 7]),
      (State.reset, .setLease .p0 [0xE9, 3, 7]), (State.reset, .setLease .p0 [1, 0, 8]), (up, .setLease .p0 [1, 0, 0]),
      (State.reset, .setLease .p0 [1, 0]), (State.reset, .setDeadline .p0 [0]), (State.reset, .setDeadline .p0 [1]),
      (State.reset, .setDeadline .p0 [15]), (State.reset, .setDeadline .p0 [16]), (up, .setDeadline .p0 [1]),
      (State.reset, .setDeadline .p0 [])].map outcome =
      [some .badArgument, some .ok, some .badArgument, some .ok, some .badArgument, some .badArgument, some .wrongState,
        some .badLength, some .badArgument, some .ok, some .ok, some .badArgument, some .badArgument, some .wrongState,
        some .badLength, some .badArgument, some .ok, some .ok, some .badArgument, some .wrongState,
        some .badLength] := by decide +kernel

/-- SETUP with P1 READY. -/
def marked : State := { State.reset with mbc := { State.reset.mbc with ports := ⟨.offline, .ready, .offline, .offline⟩ } }

/-- A write of a new value takes P1's mark, a write of the stored value does not. -/
theorem witness_SetupChangeClearsReadyMarks :
    marked.takes (.setDeadline .p0 [5]) = true ∧ marked.inRun = false ∧
      (after (.setDeadline .p0 [5]) marked).portState .p1 = .offline ∧
      (after (.setDeadline .p0 [4]) marked).portState .p1 = .ready ∧
      (after (.setFrame .p0 [4, 0, 50, 0]) marked).portState .p1 = .offline ∧
      (after (.setFrame .p0 [16, 0, 0xE8, 3]) marked).portState .p1 = .ready := by decide +kernel

theorem witness_ReadyMarksAreSetAndTakenBack :
    [(marked, Instr.ready .p0 []), (marked, .ready .p1 []), (up, .ready .p0 []), (marked, .ready .p0 [0]),
      (marked, .unready .p0 []), (marked, .unready .p1 []), (up, .unready .p0 []), (marked, .unready .p0 [0])].map outcome =
      [some .ok, some .ok, some .wrongState, some .badLength, some .ok, some .ok, some .wrongState, some .badLength] ∧
      marked.portState .p0 = .offline ∧ (Port.all.filter fun q => q != .p0 && marked.portState q == .offline) ≠ [] ∧
      (after (.unready .p1 []) marked).portState .p1 = .offline := by decide +kernel

/-- SETUP with every port READY but P0. -/
def lastOff : State := { State.reset with mbc := { State.reset.mbc with ports := ⟨.offline, .ready, .ready, .ready⟩ } }

theorem witness_LastReadyStartsRun :
    lastOff.takes (.ready .p0 []) = true ∧ lastOff.inRun = false ∧ lastOff.portState .p0 = .offline ∧
      (∀ q ∈ Port.all, q ≠ .p0 → lastOff.portState q ≠ .offline) ∧ lastOff.plan.proposal = none ∧
      (∀ bk ∈ [BankId.a, .b], ∀ i, (lastOff.cal.bank bk).entries.at i = Entry.unowned) ∧
      (after (.ready .p0 []) lastOff).inRun = true ∧
      ((after (.ready .p0 []) lastOff).link.get .p0).answer = some ⟨.reply .ok [0], true⟩ ∧
      ((after (.ready .p0 []) marked).link.get .p0).answer = some ⟨.reply .ok [2], false⟩ := by decide +kernel

/-- RUN with P1 OFFLINE. -/
def oneOff : State := { up with mbc := { up.mbc with ports := ⟨.online, .offline, .online, .online⟩ } }

theorem witness_JoinMakesPortOnline :
    [(oneOff, Instr.join .p1 []), (oneOff, .join .p0 []), (State.reset, .join .p0 []), (oneOff, .join .p1 [0])].map outcome =
      [some .ok, some .wrongState, some .wrongState, some .badLength] := by decide +kernel

/-- A leave that leaves others, the last leave, the proposer's, a voter's, that of a shadow entry's owner, an owner of a
lane with a message, and the refusals. -/
theorem witness_LeaveGivesUpEverything :
    let owned := { proposed ⟨false, false, false, false⟩ with cal := ((up.putEntry 3 ⟨none, some .p1⟩)).cal }
    [(up, Instr.leave .p1 []), (alone, .leave .p0 []), (proposed ⟨false, false, false, false⟩, .leave .p0 []),
      (proposed ⟨false, false, true, true⟩, .leave .p1 []), (owned, .leave .p1 []), (waiting, .leave .p0 []),
      (State.reset, .leave .p0 []), (alone, .leave .p1 []), (up, .leave .p0 [0])].map outcome =
      [some .ok, some .ok, some .ok, some .ok, some .ok, some .ok, some .wrongState, some .notMember, some .badLength] ∧
      (after (.leave .p0 []) alone).inRun = false ∧
      (after (.leave .p0 []) (proposed ⟨false, false, false, false⟩)).plan.last = some ⟨1, .withdrawnProposerLeft⟩ ∧
      ((after (.leave .p1 []) (proposed ⟨false, false, true, true⟩)).plan.proposal.map (·.state)) = some .accepted ∧
      (after (.leave .p1 []) owned).plan.last = some ⟨1, .lapsedMemberLeft⟩ ∧
      (after (.leave .p0 []) waiting).desc 0 = none := by decide +kernel

/-- P0 leaves with two messages on its lane, P1 with a lease. -/
theorem witness_LeaveGivesUpEverything_messages :
    (pair .opened settings0 1).takes (.leave .p0 []) = true ∧ (pair .opened settings0 1).laneMessages .p0 = [0, 1] ∧
      (leased 1).takes (.leave .p1 []) = true ∧ (leased 1).references .p1 = [0] ∧
      (after (.leave .p1 []) (leased 1)).desc 0 = none ∧
      ((after (.leave .p1 []) (leased 1)).rpt.get .p0).queue.map (·.outcome) = [.failed] ∧
      ((after (.leave .p0 []) (pair .opened settings0 1)).rpt.get .p0).queue = [] ∧
      (pair .opened settings0 1).takes (.portReset .p0 []) = true ∧
      (pair .opened settings0 1).takes (.purgeLane .p0 [0]) = true := by decide +kernel

theorem witness_LeaveGivesUpEverything_references :
    (leased 1).ReferencesLawful ∧ (pair .opened settings0 1).ReferencesLawful := ⟨refs_leased, refs_pair _ _ _⟩

theorem witness_PortResetClearsPort :
    [(up, Instr.portReset .p0 []), (marked, .portReset .p1 []), (up, .portReset .p0 [0])].map outcome =
      [some .ok, some .ok, some .badLength] ∧ up.online .p0 = true ∧ marked.online .p1 = false := by decide +kernel

/-! ## Witnesses: lanes and the Message Store -/

/-- Lane 31 and 32; no destination, all four and a fifth; a DISABLED destination; depth 0, 1, 32 and 33; policy 2; report
mode 3; a lane in use; a lane the calendar names. -/
theorem witness_OpenLaneChecksThenOpens :
    let three := { up with mbc := { up.mbc with ports := up.mbc.ports.set .p3 .disabled } }
    [(up, Instr.openLane .p0 [31, 15, 1, 0, 0, 0]), (up, .openLane .p0 [32, 15, 1, 0, 0, 0]),
      (up, .openLane .p0 [0, 0, 1, 0, 0, 0]), (up, .openLane .p0 [0, 16, 1, 0, 0, 0]), (three, .openLane .p0 [0, 8, 1, 0, 0, 0]),
      (up, .openLane .p0 [0, 1, 0, 0, 0, 0]), (up, .openLane .p0 [0, 1, 32, 1, 2, 255]), (up, .openLane .p0 [0, 1, 33, 0, 0, 0]),
      (up, .openLane .p0 [0, 1, 1, 2, 0, 0]), (up, .openLane .p0 [0, 1, 1, 0, 3, 0]), (opened, .openLane .p0 [0, 1, 1, 0, 0, 0]),
      (withActive 5 (entry0 1) up, .openLane .p0 [0, 1, 1, 0, 0, 0]), (State.reset, .openLane .p0 [0, 1, 1, 0, 0, 0]),
      (alone, .openLane .p1 [0, 1, 1, 0, 0, 0]), (up, .openLane .p0 [0])].map outcome =
      [some .ok, some .badArgument, some .badArgument, some .badArgument, some .badArgument, some .badArgument, some .ok,
        some .badArgument, some .badArgument, some .badArgument, some .laneState, some .laneScheduled, some .wrongState,
        some .notMember, some .badLength] := by decide +kernel

/-- An empty lane, a lane with a message, a DRAINING one, another's, lane 32, and one the shadow names under a proposal. -/
theorem witness_CloseLaneChecksThenCloses :
    let framed := { (proposed ⟨false, false, false, false⟩) with lanes := opened.lanes, cal := (withEntry 3 (entry0 1)).cal }
    [(opened, Instr.closeLane .p0 [0]), (waiting, .closeLane .p0 [0]), (withLane .draining settings0 [0] up, .closeLane .p0 [0]),
      (opened, .closeLane .p1 [0]), (up, .closeLane .p0 [31]), (up, .closeLane .p0 [32]), (framed, .closeLane .p0 [0]),
      (withEntry 3 (entry0 1), .closeLane .p0 [0]), (State.reset, .closeLane .p0 [0]), (alone, .closeLane .p1 [0]),
      (up, .closeLane .p0 [])].map outcome =
      [some .ok, some .ok, some .laneState, some .notOwner, some .laneState, some .badArgument, some .inPlan, some .ok,
        some .wrongState, some .notMember, some .badLength] ∧
      ((after (.closeLane .p0 [0]) waiting).lane 0).state = .draining ∧
      ((after (.closeLane .p0 [0]) opened).lane 0).state = .closed := by decide +kernel

theorem witness_PurgeLaneEndsItsMessages :
    [(opened, Instr.purgeLane .p0 [0]), (waiting, .purgeLane .p0 [0]), (opened, .purgeLane .p1 [0]),
      (up, .purgeLane .p0 [31]), (up, .purgeLane .p0 [32]), (State.reset, .purgeLane .p0 [0]), (alone, .purgeLane .p1 [0]),
      (up, .purgeLane .p0 [])].map outcome =
      [some .ok, some .ok, some .notOwner, some .laneState, some .badArgument, some .wrongState, some .notMember,
        some .badLength] ∧
      (waiting.lane 0).queue = [0] ∧ waiting.desc 0 = some msg ∧ (opened.lane 0).queue = [] ∧
      (after (.purgeLane .p0 [0]) waiting).desc 0 = none := by decide +kernel

theorem witness_LaneInfoReportsLane :
    [(waiting, Instr.laneInfo .p3 [0]), (up, .laneInfo .p3 [31]), (up, .laneInfo .p3 [32]), (State.reset, .laneInfo .p3 [0]),
      (alone, .laneInfo .p3 [0]), (up, .laneInfo .p3 [])].map outcome =
      [some .ok, some .ok, some .badArgument, some .wrongState, some .notMember, some .badLength] ∧
      (waiting.lane 0).queue = 0 :: [] ∧ waiting.desc 0 = some msg ∧ (waiting.lane 0).settings = some settings0 ∧
      (withActive 5 (entry0 1) opened).cal.activeBank.entries.at 5 = entry0 1 := by decide +kernel

/-- Every descriptor in use. -/
def noFree : State := { opened with mst := { opened.mst with desc := Tbl.fill 256 (some msg) } }

/-- P0 holding `h` buffers, `f` buffers free. -/
def holding (h f : Nat) : State :=
  { opened with mst := { opened.mst with held := opened.mst.held.set .p0 h, free := opened.mst.free.take f } }

/-- Each refusal of SEND: no data and 257 bytes, the common checks, the lane's, the store's three at their bounds. -/
theorem witness_SendIsCheckedInOrder :
    [(opened, Instr.send .p0 [0, 1, 2]), (opened, .send .p0 ([0, 1, 2] ++ List.replicate 257 7)),
      (State.reset, .send .p0 [0, 1, 2, 3]), (alone, .send .p1 [0, 1, 2, 3]), (opened, .send .p0 [32, 1, 2, 3]),
      (opened, .send .p0 [31, 1, 2, 3]), (opened, .send .p1 [0, 1, 2, 3]),
      (withLane .draining settings0 [0] up, .send .p0 [0, 1, 2, 3]),
      (withLane .opened settings0 [0, 1] up, .send .p0 [0, 1, 2, 3]), (noFree, .send .p0 [0, 1, 2, 3]),
      (holding 128 300, .send .p0 [0, 1, 2, 3]), (holding 127 300, .send .p0 [0, 1, 2, 3]),
      (holding 0 0, .send .p0 [0, 1, 2, 3]), (holding 0 1, .send .p0 [0, 1, 2, 3]),
      (holding 0 1, .send .p0 ([0, 1, 2] ++ List.replicate 65 7))].map outcome =
      [some .badLength, some .badLength, some .wrongState, some .notMember, some .badArgument, some .laneState,
        some .notOwner, some .laneState, some .laneFull, some .noDescriptor, some .quota, some .ok, some .pool, some .ok,
        some .pool] := by decide +kernel

/-- A message of one byte and one of 256, from states where descriptor 0 is FREE and where it is not. -/
theorem witness_SendIsGranted :
    [(opened, Instr.send .p0 [0, 1, 2, 3]), (opened, .send .p0 ([0, 1, 2] ++ List.replicate 256 7)),
      (waiting, .send .p0 [0, 1, 2, 3])].map outcome = [some .ok, some .ok, some .ok] ∧
      opened.inRun = true ∧ opened.online .p0 = true ∧
      (opened.lane 0).state = .opened ∧ (opened.lane 0).settings = some settings0 ∧ settings0.owner = .p0 ∧
      (opened.lane 0).queue.length < settings0.depth ∧ (waiting.lane 0).queue.length < settings0.depth ∧
      opened.desc 0 = none ∧ waiting.desc 1 = none ∧ (∀ d' : DescId, d' < 1 → waiting.desc d' ≠ none) ∧
      opened.mst.held.get .p0 + 4 ≤ (opened.params .p0).ceiling ∧
      4 + (Port.sum fun q => (opened.params q).reserve - (opened.mst.held.get q + if q = .p0 then 4 else 0)) ≤
        opened.mst.free.length ∧ Memory.wf waiting.mst.pool = true := by decide +kernel

theorem witness_SendIsGranted_nodup : opened.mst.free.Nodup := by
  have h : opened.mst.free = List.finRange 512 := by simp only [opened, withLane, up, State.reset, Mst.reset]
  rw [h]; exact List.nodup_finRange 512

/-! ## Witnesses: Receive Unit -/

/-- P1 with its four slots HELD, a message queued. -/
def slotsFull : State :=
  { queued with rx := queued.rx.set .p1 { queued.rx.p1 with slots := Tbl.fill 4 ⟨some ⟨0, 5⟩, 1, none⟩ } }

theorem witness_FetchLeasesQueueHead :
    [(queued, Instr.fetch .p1 []), (opened, .fetch .p1 []), (slotsFull, .fetch .p1 []), (State.reset, .fetch .p1 []),
      (alone, .fetch .p1 []), (queued, .fetch .p1 [0])].map outcome =
      [some .ok, some .empty, some .noLeaseSlot, some .wrongState, some .notMember, some .badLength] ∧
      (queued.rx.get .p1).queue = 0 :: [] ∧ queued.desc 0 = some (sent .queued 0) ∧
      ((queued.rx.get .p1).slots.at 0).lease = none := by decide +kernel

/-- P1's slot 0 FREE after generation 1 ended with a cause. -/
def ended (c : EndCause) : State :=
  { opened with rx := opened.rx.set .p1 { opened.rx.p1 with slots := opened.rx.p1.slots.put 0 ⟨none, 1, some ⟨1, c⟩⟩ } }

/-- Handle 01h names slot 0, generation 1; 3Fh slot 3, generation 15; 40h is no handle. RETURN's position is 0 or 1. -/
theorem witness_HandlesResolve :
    [(leased 1, Instr.reread .p1 [1]), (leased 1, .ack .p1 [1]), (leased 1, .returnLease .p1 [1, 1]),
      (leased 1, .returnLease .p1 [1, 2]), (leased 1, .ack .p1 [2]), (leased 1, .ack .p1 [0x3F]), (leased 1, .ack .p1 [0x40]),
      (ended .expired, .ack .p1 [1]), (ended .settled, .ack .p1 [1]), (ended .expired, .returnLease .p1 [1, 0]),
      (State.reset, .reread .p1 [1]), (alone, .ack .p1 [1]), (leased 1, .ack .p1 []), (leased 1, .returnLease .p1 [1])].map
        outcome =
      [some .ok, some .ok, some .ok, some .badArgument, some .badLease, some .badLease, some .badArgument, some .late,
        some .badLease, some .late, some .wrongState, some .notMember, some .badLength, some .badLength] ∧
      byteAt [1] 0 = 16 * (0 : SlotId).val + (1 : BitVec 4).toNat ∧ byteAt [0x3F] 0 = 16 * (3 : SlotId).val + (15 : BitVec 4).toNat ∧
      ((leased 1).rx.get .p1).slots.at 0 = ⟨some ⟨0, 5⟩, 1, none⟩ ∧ (leased 1).desc 0 = some (sent .leased 1) := by
  decide +kernel

/-- The last delivery of a message, and one of two. -/
theorem witness_AckSettlesDelivery :
    let two := { leased 1 with mst := { (leased 1).mst with desc := (leased 1).mst.desc.put 0 (some { sent .leased 1 with outstanding := 2 }) } }
    (leased 1).takes (.ack .p1 [1]) = true ∧ (leased 1).inRun = true ∧ (leased 1).online .p1 = true ∧
      (((leased 1).rx.get .p1).slots.at 0).lease = some ⟨0, 5⟩ ∧ handleByte 0 1 = 1 ∧
      (((leased 1).rx.get .p1).slots.at 0).generation = 1 ∧ (leased 1).desc 0 = some (sent .leased 1) ∧
      (after (.ack .p1 [1]) (leased 1)).desc 0 = none ∧
      ((after (.ack .p1 [1]) two).desc 0).map (·.outstanding) = some 1 := by decide +kernel

/-- Attempts at the redelivery limit 2 and above it, and each position. -/
theorem witness_ReturnRequeuesOrGivesUp :
    (leased 2).takes (.returnLease .p1 [1, 0]) = true ∧ (leased 3).takes (.returnLease .p1 [1, 1]) = true ∧
      (leased 2).inRun = true ∧ (leased 2).online .p1 = true ∧ (((leased 2).rx.get .p1).slots.at 0).lease = some ⟨0, 5⟩ ∧
      (1 : Byte) = handleByte 0 (((leased 2).rx.get .p1).slots.at 0).generation ∧ (1 : Byte).toNat ≤ 1 ∧
      (leased 2).desc 0 = some (sent .leased 2) ∧ (sent .leased 2).attempts.get .p1 ≤ ((leased 2).params .p1).redelivery ∧
      ((leased 3).params .p1).redelivery < (sent .leased 3).attempts.get .p1 ∧
      ((after (.returnLease .p1 [1, 0]) (leased 2)).rx.get .p1).queue = [0] ∧
      ((after (.returnLease .p1 [1, 1]) (leased 3)).rx.get .p1).deliveriesExpired = 1 := by decide +kernel

theorem witness_LeaseExpiryRequeuesOrGivesUp :
    (leased 2).resetLow = false ∧ (leased 2).refclk = true ∧ (((leased 2).rx.get .p1).slots.at 0).lease = some ⟨0, 5⟩ ∧
      (leased 2).desc 0 = some (sent .leased 2) ∧ (sent .leased 2).attempts.get .p1 ≤ ((leased 2).params .p1).redelivery ∧
      ((leased 3).params .p1).redelivery < (sent .leased 3).attempts.get .p1 ∧
      ((after (.leaseExpiry .p1 0) (leased 2)).rx.get .p1).leaseExpiries = 1 ∧
      (after (.leaseExpiry .p1 0) (leased 2)).timer.timeBase = 5 ∧
      (after (.leaseExpiry .p1 0) (leased 3)).desc 0 = none := by decide +kernel

/-! ## Witnesses: reports, events and counters -/

theorem witness_MessageEndReportsAndFrees :
    waiting.desc 0 = some msg ∧ (leased 1).desc 0 = some (sent .leased 1) ∧
      (waiting.endMessage 0 .purged).desc 0 = none := by decide +kernel

theorem witness_GetReportTakesOldest :
    [(reported, Instr.getReport .p0 []), (up, .getReport .p0 []), (State.reset, .getReport .p0 []), (alone, .getReport .p1 []),
      (reported, .getReport .p0 [0])].map outcome =
      [some .ok, some .empty, some .wrongState, some .notMember, some .badLength] ∧
      ((reported.rpt.get .p0).queue.map (·.outcome)) = [.purged] := by decide +kernel

/-- A kind not latched, one latched, and one that is not enabled. -/
theorem test_raise :
    let a := (noted.att.get .p0).raise .exchangeRun
    let b := (up.att.get .p0).raise .linkError
    EventSet.has a.renewed .exchangeRun = true ∧ b.latched = 0x800 ∧ b.renewed = 0 ∧ b.attnLow = false := by decide +kernel

/-- The highest kind, and one above it. -/
theorem witness_EventsAreReadAndMasked :
    [(up, Instr.getEvents .p0 []), (up, .getEvents .p0 [0]), (up, .setEventMask .p0 [0xFF, 0x0F]),
      (up, .setEventMask .p0 [0xFF, 0x10]), (up, .setEventMask .p0 [0])].map outcome =
      [some .ok, some .badLength, some .ok, some .badArgument, some .badLength] := by decide +kernel

/-- R141: a renewed kind stays latched. -/
theorem witness_ClearEventsConsumesSnapshot :
    [(noted, Instr.clearEvents .p0 [1]), (noted, .clearEvents .p0 [2]), (up, .clearEvents .p0 [1]),
      (noted, .clearEvents .p0 [])].map outcome = [some .ok, some .staleSnapshot, some .staleSnapshot, some .badLength] ∧
      (noted.att.get .p0).snapshot = some ⟨1, 0xC00⟩ ∧ (up.att.get .p0).snapshot = none ∧
      ((after (.clearEvents .p0 [1]) noted).att.get .p0).latched = 0x400 := by decide +kernel

theorem witness_ReadCountersReadsAndClears :
    [(up, Instr.readCounters .p0 [0, 0]), (up, .readCounters .p0 [3, 0]), (up, .readCounters .p0 [4, 0]),
      (up, .readCounters .p0 [0, 1]), (up, .readCounters .p0 [0, 2]), (up, .readCounters .p0 [3, 1]),
      (up, .readCounters .p0 [0])].map outcome =
      [some .ok, some .ok, some .badArgument, some .ok, some .badArgument, some .notOwner, some .badLength] ∧
      byteAt [3, 0] 0 = Port.p3.toNat := by decide +kernel

/-! ## Witnesses: Calendar Store -/

theorem witness_BanksAreRead :
    [(up, Instr.readEntry .p0 [0, 0]), (withActive 255 (entry0 4) opened, .readEntry .p0 [0, 255]), (up, .readEntry .p0 [1, 255]),
      (up, .readEntry .p0 [2, 0]), (up, .readEntry .p0 [0]), (State.reset, .readHeader .p0 []),
      (up, .readHeader .p0 [0])].map outcome =
      [some .ok, some .ok, some .ok, some .badArgument, some .badLength, some .ok, some .badLength] := by decide +kernel

/-- An unowned entry, the port's own, another's, and a frozen shadow; entries 0 and 255. -/
theorem witness_EntriesAreClaimedClearedDisowned :
    let own := withEntry 255 (entry0 1)
    let frozen := proposed ⟨false, false, false, false⟩
    [(up, Instr.claim .p0 [0]), (own, .claim .p0 [255]), (own, .claim .p1 [255]), (frozen, .claim .p0 [0]),
      (State.reset, .claim .p0 [0]), (alone, .claim .p1 [0]), (up, .claim .p0 []), (own, .clearEntry .p0 [255]),
      (own, .clearEntry .p1 [255]), (up, .clearEntry .p0 [0]), (frozen, .clearEntry .p0 [0]), (own, .disown .p0 [255]),
      (own, .disown .p1 [255]), (frozen, .disown .p0 [0])].map outcome =
      [some .ok, some .ok, some .taken, some .frozen, some .wrongState, some .notMember, some .badLength, some .ok,
        some .notOwner, some .notOwner, some .frozen, some .ok, some .notOwner, some .frozen] ∧
      own.shadowEntry 255 = entry0 1 ∧ (after (.clearEntry .p0 [255]) own).shadowEntry 255 = ⟨none, some .p0⟩ ∧
      (after (.disown .p0 [255]) own).shadowEntry 255 = ⟨none, none⟩ ∧
      (after (.claim .p0 [0]) up).shadowEntry 0 = ⟨none, some .p0⟩ := by decide +kernel

/-- Bursts 0, 1, 4 and 5; lanes 31 and 32; whose entry, whose lane and in which state it is. -/
theorem witness_WriteEntryChecksThenWrites :
    let own := withEntry 7 ⟨none, some .p0⟩
    let foreign := withEntry 7 ⟨none, some .p1⟩
    [(own, Instr.writeEntry .p0 [7, 0, 1]), (own, .writeEntry .p0 [7, 0, 4]), (own, .writeEntry .p0 [7, 0, 0]),
      (own, .writeEntry .p0 [7, 0, 5]), (own, .writeEntry .p0 [7, 31, 1]), (own, .writeEntry .p0 [7, 32, 1]),
      (foreign, .writeEntry .p0 [7, 0, 1]), (foreign, .writeEntry .p1 [7, 0, 1]),
      ((withLane .draining settings0 [0] own), .writeEntry .p0 [7, 0, 1]),
      (proposed ⟨false, false, false, false⟩, .writeEntry .p0 [7, 0, 1]), (State.reset, .writeEntry .p0 [7, 0, 1]),
      (alone, .writeEntry .p1 [7, 0, 1]), (own, .writeEntry .p0 [7, 0])].map outcome =
      [some .ok, some .ok, some .badArgument, some .badArgument, some .laneState, some .badArgument, some .notOwner,
        some .notOwner, some .laneState, some .frozen, some .wrongState, some .notMember, some .badLength] ∧
      (after (.writeEntry .p0 [7, 0, 4]) own).shadowEntry 7 = entry0 4 := by decide +kernel

/-- Slots 3, 4, 256 and 257; lengths 49, 50 and 65535; in SETUP, in RUN, and under a proposal. -/
theorem witness_SetFrameWritesShadowHeader :
    [(State.reset, Instr.setFrame .p0 [3, 0, 50, 0]), (State.reset, .setFrame .p0 [4, 0, 50, 0]),
      (State.reset, .setFrame .p0 [0, 1, 0xFF, 0xFF]), (State.reset, .setFrame .p0 [1, 1, 50, 0]),
      (State.reset, .setFrame .p0 [4, 0, 49, 0]), (up, .setFrame .p0 [4, 0, 50, 0]), (alone, .setFrame .p1 [4, 0, 50, 0]),
      (proposed ⟨false, false, false, false⟩, .setFrame .p0 [4, 0, 50, 0]), (up, .setFrame .p0 [4, 0])].map outcome =
      [some .badArgument, some .ok, some .ok, some .badArgument, some .badArgument, some .ok, some .notMember, some .frozen,
        some .badLength] := by decide +kernel

/-! ## Witnesses: Plan Coordinator -/

/-- A valid shadow before voters and with none; a bad entry (a CLOSED lane); a standing proposal. -/
theorem witness_ProposeOpensProposal :
    let bad := up.putEntry 2 (entry0 1)
    [(withEntry 2 (entry0 1), Instr.propose .p0 []), (alone, .propose .p0 []), (bad, .propose .p0 []),
      (proposed ⟨false, false, false, false⟩, .propose .p0 []), (State.reset, .propose .p0 []), (alone, .propose .p1 []),
      (up, .propose .p0 [0])].map outcome =
      [some .ok, some .ok, some .planInvalid, some .planBusy, some .wrongState, some .notMember, some .badLength] ∧
      bad.shadowEntry 2 = entry0 1 ∧ (bad.lane 0).state = .closed ∧
      ((after (.propose .p0 []) alone).plan.proposal.map (·.state)) = some .accepted ∧
      ((after (.propose .p0 []) up).plan.proposal.map (·.state)) = some .opened := by decide +kernel

/-- Votes 0 to 3; the last YES and another; a second vote that agrees and one that does not; the proposer; a wrong number. -/
theorem witness_VoteIsCast :
    let none' := proposed ⟨false, false, false, false⟩
    let some' := proposed ⟨false, true, false, false⟩
    [(none', Instr.vote .p1 [1, 1]), (none', .vote .p1 [1, 2]), (none', .vote .p1 [1, 0]), (none', .vote .p1 [1, 3]),
      (some', .vote .p1 [1, 1]), (some', .vote .p1 [1, 2]), (none', .vote .p0 [1, 1]), (none', .vote .p1 [2, 1]),
      (up, .vote .p1 [1, 1]), (State.reset, .vote .p1 [1, 1]), (alone, .vote .p1 [1, 1]), (up, .vote .p1 [1])].map outcome =
      [some .ok, some .ok, some .badArgument, some .badArgument, some .ok, some .voteConflict, some .notVoter,
        some .staleNumber, some .noProposal, some .wrongState, some .notMember, some .badLength] ∧
      ((after (.vote .p3 [1, 1]) (proposed ⟨false, true, true, false⟩)).plan.proposal.map (·.state)) = some .accepted ∧
      ((after (.vote .p1 [1, 1]) none').plan.proposal.map (·.state)) = some .opened ∧
      (after (.vote .p1 [1, 2]) none').plan.last = some ⟨1, .rejected .p1⟩ := by decide +kernel

theorem witness_WithdrawDecidesProposal :
    let s := proposed ⟨false, true, true, true⟩
    [(s, Instr.withdraw .p0 [1]), (s, .withdraw .p1 [1]), (s, .withdraw .p0 [2]), (up, .withdraw .p0 [1]),
      (State.reset, .withdraw .p0 [1]), (alone, .withdraw .p1 [1]), (s, .withdraw .p0 [])].map outcome =
      [some .ok, some .notOwner, some .staleNumber, some .noProposal, some .wrongState, some .notMember, some .badLength] ∧
      (after (.withdraw .p0 [1]) s).plan.last = some ⟨1, .withdrawnByProposer⟩ := by decide +kernel

theorem witness_PlanStatusReportsPlan :
    let s := proposed ⟨false, true, false, false⟩
    let t := after (.withdraw .p0 [1]) s
    [(s, Instr.planStatus .p0 []), (t, .planStatus .p0 []), (alone, .planStatus .p1 []), (State.reset, .planStatus .p0 []),
      (s, .planStatus .p0 [0])].map outcome = [some .ok, some .ok, some .ok, some .wrongState, some .badLength] ∧
      s.plan.proposal.isSome = true ∧ s.plan.last = none ∧ t.plan.proposal = none ∧ t.plan.last.isSome = true := by
  decide +kernel

/-! ## Witnesses: slots, cycles and releases -/

/-- In the last slot of its cycle. -/
def atEnd (s : State) : State := { s with timer := { s.timer with slot := 15 } }

/-- Within a cycle, at its end (with no proposal, an accepted one, one with time left, one without), STOPPED, and a pulse. -/
theorem witness_SlotStartAdvancesTimer :
    let s := proposed ⟨false, false, false, false⟩
    let accepted := { up with plan := { up.plan with proposal := some ⟨.accepted, 1, .p0, ⟨false, true, false, false⟩, ⟨false, true, false, false⟩, 4⟩ } }
    let last := { up with plan := { up.plan with proposal := some ⟨.opened, 1, .p0, ⟨false, true, false, false⟩, ⟨false, false, false, false⟩, 1⟩ } }
    up.resetLow = false ∧ up.refclk = true ∧ up.timer.state = .running ∧ up.timer.nextSlot = some 1000 ∧
      up.timer.slot.toNat + 1 < up.timer.header.slots ∧ (atEnd up).timer.header.slots ≤ (atEnd up).timer.slot.toNat + 1 ∧
      (after .slotStart up).timer.slot = 1 ∧ (after .slotStart (atEnd up)).timer.cycle = 1 ∧
      ((after .slotStart (atEnd s)).plan.proposal.map (·.remaining)) = some 3 ∧
      (after .slotStart (atEnd accepted)).cal.active = .b ∧
      (after .slotStart (atEnd last)).plan.last = some ⟨1, .lapsedDeadline⟩ ∧
      State.reset.timer.state = .stopped ∧ (after .slotStart (atEnd up)).timer.syncEnd = some 1008 ∧
      (after .syncOutPulseEnd (after .slotStart (atEnd up))).timer.syncOut = false := by decide +kernel

/-- P1 without room. -/
def crowded (s : State) : State := { s with mbc := { s.mbc with params := s.mbc.params.set .p1 { Params.default with depth := 0 } } }

/-- At cycle 2, where a message of cycle 0 is stale on a lane of maximum age 1. -/
def later (s : State) : State := { s with timer := { s.timer with cycle := 2 } }

/-- The pair, its lane's entry at index 0, in the last slot of a cycle. -/
def pairAtEnd : State := atEnd (withActive 0 (entry0 1) (pair .opened settings0 1))

theorem witness_ReleasePassFollowsPolicy (st : LaneState) (t : LaneSettings) (b : Nat) :
    let s := pair st t b
    s.resetLow = false ∧ s.refclk = true ∧ s.timer.state = .running ∧ s.timer.nextSlot = some 1000 ∧ s.ReferencesLawful ∧
      (crowded s).ReferencesLawful ∧ (later s).ReferencesLawful ∧ pairAtEnd.ReferencesLawful :=
  ⟨rfl, rfl, rfl, rfl, refs_pair st t b, refs_pair st t b, refs_pair st t b, refs_pair .opened settings0 1⟩

/-- Bursts 1 and 2 of a pair; no room under MISS, where both messages end, and under HOLD; both stale, and the lane, DRAINING,
closed; the release pass of slot 0 of the next cycle. -/
theorem witness_ReleasePassFollowsPolicy_arms :
    let hold := { settings0 with policy := .hold }
    let aged := { settings0 with maxAge := 1 }
    ((after .slotStart (pair .opened settings0 1)).rx.get .p1).queue = [0] ∧
      ((after .slotStart (pair .opened settings0 2)).rx.get .p1).queue = [0, 1] ∧
      ((after .slotStart (pair .opened settings0 4)).lane 0).counters = ⟨0, 2, 0, 0, 0, 0⟩ ∧
      ((after .slotStart (crowded (pair .opened settings0 4))).lane 0).counters = ⟨0, 2, 2, 0, 0, 0⟩ ∧
      (after .slotStart (crowded (pair .opened settings0 4))).desc 0 = none ∧
      ((after .slotStart (crowded (pair .opened settings0 4))).rpt.get .p0).queue.map (·.outcome) = [.failed, .failed] ∧
      (after .slotStart (crowded (pair .opened hold 4))).lane 0 =
        ⟨.opened, some hold, [0, 1], ⟨0, 0, 0, 0, 1, 0⟩⟩ ∧
      (after .slotStart (later (pair .draining aged 1))).lane 0 = ⟨.closed, some aged, [], ⟨0, 0, 0, 2, 0, 1⟩⟩ ∧
      ((after .slotStart pairAtEnd).rx.get .p1).queue = [0] := by decide +kernel

/-! ## Witnesses: the laws that every step keeps -/

/-- A slot start waits in the queue. -/
def due (s : State) : State := { s with pending := [.slotStart] }

theorem due_step (s : State) : ∃ t, step (due s) = .next t := ⟨_, rfl⟩

theorem witness_StepKeepsMembershipLawful :
    (due State.reset).ParamsLawful ∧ (due alone).MembershipLawful ∧ (∃ t, step (due State.reset) = .next t) ∧
      ∃ t, step (due alone) = .next t := by
  refine ⟨⟨?_, by decide +kernel⟩, ⟨fun h => absurd h (by decide +kernel), fun _ => ⟨⟨.p0, by decide +kernel⟩, ?_⟩⟩, due_step _, due_step _⟩
  · intro p; cases p <;> decide +kernel
  · intro p; cases p <;> decide +kernel

theorem witness_StepKeepsAttentionLawful : (due noted).AttentionLawful ∧ ∃ t, step (due noted) = .next t := by
  refine ⟨?_, due_step _⟩
  intro p
  refine ⟨by cases p <;> decide +kernel, by cases p <;> decide +kernel, by cases p <;> decide +kernel, ?_⟩
  intro sn h
  have h' : (due noted).att.get p = if p = .p0 then noted.att.p0 else Att.reset := by cases p <;> rfl
  rw [h'] at h
  split at h
  · cases h; decide
  · cases h

theorem bank_cases (i : EntryId) (e : Entry) (bk : BankId) (j : EntryId) :
    ((withEntry i e).cal.bank bk).entries.at j = if bk = .b ∧ j = i then e else Entry.unowned := by
  cases bk
  · simp [withEntry, State.putEntry, opened, withLane, up, State.reset, Cal.reset, Cal.setShadow, Cal.setBank, Cal.bank,
      BankId.other, Bank.reset]
  · simp [withEntry, State.putEntry, opened, withLane, up, State.reset, Cal.reset, Cal.setShadow, Cal.setBank, Cal.bank,
      Cal.shadow, BankId.other, Bank.reset, Bank.put]

theorem witness_StepKeepsEntriesLawful :
    (due (withEntry 3 (entry0 4))).EntriesLawful ∧ ∃ t, step (due (withEntry 3 (entry0 4))) = .next t := by
  have hb : ∀ bk i, ((due (withEntry 3 (entry0 4))).cal.bank bk).entries.at i =
      if bk = .b ∧ i = 3 then entry0 4 else Entry.unowned := bank_cases 3 (entry0 4)
  refine ⟨⟨fun bk i h => ?_, fun bk i r h => ?_, fun h => absurd h (by decide +kernel)⟩, due_step _⟩ <;> rw [hb] at h ⊢
  · by_cases c : bk = .b ∧ i = 3
    · rw [if_pos c] at h; cases h
    · rw [if_neg c]; rfl
  · by_cases c : bk = .b ∧ i = 3
    · rw [if_pos c] at h ⊢; cases h; decide +kernel
    · rw [if_neg c] at h; cases h

theorem witness_StepKeepsPlanLawful :
    (due (proposed ⟨false, true, false, false⟩)).PlanLawful ∧ ∃ t, step (due (proposed ⟨false, true, false, false⟩)) = .next t := by
  refine ⟨⟨by decide +kernel, by decide +kernel, by decide +kernel, ?_⟩, due_step _⟩
  intro r h
  have h' : some (⟨.opened, 1, .p0, ⟨false, true, true, true⟩, ⟨false, true, false, false⟩, 4⟩ : Proposal) = some r := h
  cases h'
  refine ⟨by decide +kernel, by decide +kernel, by decide +kernel, ?_, ?_, ?_, by decide, by decide, by decide, ?_⟩
  · intro q; cases q <;> decide +kernel
  · intro q; cases q <;> decide +kernel
  · exact ⟨fun h => (by cases h), fun h => absurd (h .p2) (by decide)⟩
  · rintro i ⟨r, hr, -⟩
    have he : (due (proposed ⟨false, true, false, false⟩)).shadowEntry i = Entry.unowned :=
      Tbl.at_fill Entry.unowned i
    rw [he] at hr; cases hr

theorem witness_StepKeepsTimerLawful : (due up).TimerLawful ∧ ∃ t, step (due up) = .next t := by
  refine ⟨⟨by decide +kernel, by decide +kernel, by decide +kernel, by decide +kernel, by decide +kernel, ?_, ?_⟩, due_step _⟩
  · unfold Header.inRange; decide +kernel
  · intro bk; unfold Header.inRange; cases bk <;> decide +kernel

theorem lane_cases (s : State) (st : LaneState) (t : LaneSettings) (q : List DescId) (l : LaneId) :
    (withLane st t q s).lane l = if l = 0 then ⟨st, some t, q, LaneCounters.zero⟩ else s.lane l := by
  simp [withLane, State.lane]

theorem witness_StepKeepsLanesLawful : (due waiting).LanesLawful ∧ ∃ t, step (due waiting) = .next t := by
  refine ⟨?_, due_step _⟩
  intro l
  have e : (due waiting).lane l = if l = 0 then ⟨.opened, some settings0, [0], LaneCounters.zero⟩ else Lane.reset := by
    have := lane_cases up .opened settings0 [0] l
    have hu : up.lane l = Lane.reset := by simp [up, State.reset, State.lane]
    rw [hu] at this; exact this
  rw [e]
  split
  · refine ⟨by decide, by decide, fun _ => ⟨settings0, rfl, by decide +kernel, by decide, ?_, by decide⟩⟩
    intro q; cases q <;> decide +kernel
  · exact ⟨fun _ => rfl, fun h => (by cases h), fun h => absurd rfl h⟩

theorem witness_StepKeepsReceiveLawful :
    (due slotsFull).MembershipLawful ∧ (due slotsFull).ReceiveLawful ∧ ∃ t, step (due slotsFull) = .next t := by
  refine ⟨⟨fun h => absurd h (by decide +kernel), fun _ => ⟨⟨.p0, by decide +kernel⟩, ?_⟩⟩, ?_, due_step _⟩
  · intro p; cases p <;> decide +kernel
  · intro p; cases p <;> decide +kernel

theorem witness_StepKeepsReferencesLawful :
    (due (leased 1)).ReferencesLawful ∧ (due (leased 1)).SetupIsEmpty ∧ (due (leased 1)).AttemptsLawful ∧
      ∃ t, step (due (leased 1)) = .next t := by
  refine ⟨refs_leased, fun h => absurd h (by decide +kernel), ?_, due_step _⟩
  intro d m p h
  have e := desc_cases (sent .leased 1) opened d
  rw [show opened.desc d = none from up_desc d] at e
  rw [show (due (leased 1)).desc d = _ from e] at h
  split at h
  · cases h; revert p; intro p; cases p <;> decide +kernel
  · cases h

theorem witness_StepKeepsStoreLawful :
    (due waiting).StoreLawful ∧ (due waiting).SetupIsEmpty ∧ (due waiting).QuotaLawful ∧
      ∃ t, step (due waiting) = .next t := by
  have e : ∀ d, (due waiting).desc d = if d = 0 then some msg else none := by
    intro d
    have := desc_cases msg (withLane .opened settings0 [0] up) d
    have hu : (withLane .opened settings0 [0] up).desc d = none := up_desc d
    rw [hu] at this; exact this
  refine ⟨⟨?_, fun p => ?_, fun d m hm => ?_, by decide +kernel, by decide +kernel⟩,
    fun h => absurd h (by decide +kernel), ⟨fun p => ?_, by decide +kernel⟩, due_step _⟩
  · simp only [e]; decide +kernel
  · simp only [e]; cases p <;> decide +kernel
  · rw [e] at hm
    split at hm
    · cases hm; decide
    · cases hm
  · cases p <;> decide +kernel

theorem witness_StepKeepsLinksLawful :
    let s := due (withLink { openLink .awaiting with executing := some reqDeadline, record := some recorded1 } up)
    (∀ p, s.LinkLawful p) ∧ ∃ t, step s = .next t := by
  refine ⟨?_, due_step _⟩
  intro p
  refine ⟨by cases p <;> decide +kernel, by cases p <;> decide +kernel, by cases p <;> decide +kernel, by cases p <;> decide +kernel, ?_, ?_⟩
  · intro k h
    cases p
    · cases h; decide
    all_goals cases h
  · intro r f resp h h'
    cases p <;> cases h'
/-- SETUP with the proposal deadline at its upper bound. -/
def setup15 : State := { State.reset with mbc := { State.reset.mbc with deadline := 15 } }

theorem witness_LawfulSetupHoldsNoMessage : setup15.Lawful ∧ setup15.inRun = false := by
  have hd : ∀ d, setup15.desc d = none := fun d => Tbl.at_fill none d
  have hl : ∀ l, setup15.lane l = Lane.reset := fun l => Tbl.at_fill Lane.reset l
  have hb : ∀ bk i, (setup15.cal.bank bk).entries.at i = Entry.unowned :=
    fun bk i => by cases bk <;> exact Tbl.at_fill Entry.unowned i
  have hrx : ∀ p, setup15.rx.get p = Rx.reset := by intro p; cases p <;> rfl
  refine ⟨⟨⟨?_, by decide +kernel⟩, ⟨fun _ => ?_, fun h => absurd h (by decide +kernel)⟩, ?_, ?_, ⟨?_, by decide +kernel⟩, ?_, ?_, ?_, ?_, ?_, ?_,
    fun d m _ h => (by rw [hd] at h; cases h), ?_⟩, by decide +kernel⟩
  · intro p; cases p <;> decide +kernel
  · intro p; cases p <;> decide +kernel
  · intro p
    exact ⟨by cases p <;> decide +kernel, by cases p <;> decide +kernel, by cases p <;> decide +kernel,
      fun sn h => by cases p <;> cases h⟩
  · refine ⟨?_, fun p => ?_, fun d m h => ?_, by decide +kernel, by decide +kernel⟩
    · have hf : setup15.mst.free = List.finRange 512 := by simp only [setup15, State.reset, Mst.reset]
      simp only [hd, fragmentsOf, hf]
      decide +kernel
    · simp only [hd, heldFor]; cases p <;> decide +kernel
    · rw [hd] at h; cases h
  · intro p; cases p <;> decide +kernel
  · refine ⟨fun bk i _ => ?_, fun bk i r h => ?_, fun _ bk i => hb bk i⟩
    · rw [hb]; rfl
    · rw [hb] at h; cases h
  · exact ⟨by decide, by decide, by decide, fun r h => by cases h⟩
  · refine ⟨by decide +kernel, by decide +kernel, by decide +kernel, by decide +kernel, by decide +kernel, ?_, fun bk => ?_⟩
    · unfold Header.inRange; decide +kernel
    · unfold Header.inRange; cases bk <;> decide +kernel
  · intro l
    rw [hl]
    exact ⟨fun _ => rfl, fun h => (by cases h), fun h => absurd rfl h⟩
  · intro p; cases p <;> decide +kernel
  · intro d
    rw [hd]
    refine ⟨fun _ => ⟨fun l => ?_, fun p => ?_⟩, fun m h => by cases h⟩
    · unfold State.laneRefs; rw [hl]; rfl
    · unfold State.queueRefs State.slotRefs
      rw [hrx]
      exact ⟨rfl, List.countP_eq_zero.2 fun n _ => by simp [Rx.reset, LeaseSlot.reset, LeaseSlot.holds]⟩
  · intro p
    exact ⟨by cases p <;> decide +kernel, by cases p <;> decide +kernel, by cases p <;> decide +kernel,
      by cases p <;> decide +kernel, fun k h => (by cases p <;> cases h), fun r f resp h => (by cases p <;> cases h)⟩

end Sys2Proof.Tests
end

section
/-! PROOFS. The edits of a shadow entry: CLAIM, CLEAR_ENTRY and DISOWN (03_calendar_banks.md, R47 to R52). Each is a list
of checks made in order before one write to the shadow bank. -/

namespace Sys2Proof.Machine

open Sys2Proof

/-! ## Writes to the shadow bank -/

@[simp] theorem Cal.setShadow_active (c : Cal) (b : Bank) : (c.setShadow b).active = c.active := by
  cases h : c.active <;> simp [Cal.setShadow, Cal.setBank, BankId.other, h]

@[simp] theorem Cal.activeBank_setShadow (c : Cal) (b : Bank) : (c.setShadow b).activeBank = c.activeBank := by
  cases h : c.active <;> simp [Cal.activeBank, Cal.bank, Cal.setShadow, Cal.setBank, BankId.other, h]

@[simp] theorem Cal.shadow_setShadow (c : Cal) (b : Bank) : (c.setShadow b).shadow = b := by
  cases h : c.active <;> simp [Cal.shadow, Cal.bank, Cal.setShadow, Cal.setBank, BankId.other, h]

@[simp] theorem Bank.put_header (b : Bank) (i : EntryId) (e : Entry) : (b.put i e).header = b.header := rfl

@[simp] theorem Bank.put_entries (b : Bank) (i : EntryId) (e : Entry) : (b.put i e).entries = b.entries.put i e := rfl

@[simp] theorem State.shadowEntry_putEntry (s : State) (i j : EntryId) (e : Entry) :
    (s.putEntry i e).shadowEntry j = if j = i then e else s.shadowEntry j := by
  simp [State.shadowEntry]

/-! ## Checks made in order -/

/-- A block that makes checks in order refuses with the status of the first that fails, and acts when all pass. -/
def checked (s : State) (checks : List (Bool × Status)) (act : State × Answer) : State × Answer :=
  match firstFailing checks with
  | some st => refuse s st
  | none => act

theorem checked_nil (s : State) (act : State × Answer) : checked s [] act = act := rfl

theorem checked_cons (s : State) (pass : Bool) (st : Status) (rest : List (Bool × Status)) (act : State × Answer) :
    checked s ((pass, st) :: rest) act = if pass then checked s rest act else refuse s st := by
  cases pass <;> rfl

theorem checked_of_some {s : State} {checks : List (Bool × Status)} {st : Status} (h : firstFailing checks = some st)
    (act : State × Answer) : checked s checks act = (s, .reply st []) := by
  unfold checked
  rw [h]
  rfl

theorem checked_of_none {s : State} {checks : List (Bool × Status)} (h : firstFailing checks = none)
    (act : State × Answer) : checked s checks act = act := by
  unfold checked
  rw [h]

/-- The shadow is frozen exactly while a proposal stands (R48). -/
theorem State.frozen_eq (s : State) : s.frozen = !s.plan.proposal.isNone := (Option.not_isNone _).symm

theorem editChecks_eq_checked (s : State) (p : Port) (act : State × Answer) :
    editChecks s p act =
      checked s [(s.inRun, .wrongState), (s.online p, .notMember), (s.plan.proposal.isNone, .frozen)] act := by
  simp only [editChecks, memberOnly, memberElse, checked_cons, checked_nil, State.frozen_eq]
  cases s.inRun <;> cases s.online p <;> cases s.plan.proposal.isNone <;> rfl

/-! ## The checks and the write of an edit -/

/-- The entry an edit names: the index is the first byte of its payload. -/
def entryNo (payload : List Byte) : EntryId := entryOf (payload.getD 0 0)

theorem shadowNo_byteAt (s : State) (payload : List Byte) :
    s.shadowNo (byteAt payload 0) = s.shadowEntry (entryNo payload) := dif_pos (entryNo payload).isLt

/-- The checks of an edit whose payload is an index: its length, those of Table 3-5 from the second on, and its own. -/
def entryChecks (s : State) (p : Port) (payload : List Byte) (own : Bool × Status) : List (Bool × Status) :=
  [(decide (payload.length = 1), .badLength), (s.inRun, .wrongState), (s.online p, .notMember),
    (s.plan.proposal.isNone, .frozen), own]

theorem checked_entryChecks_index (s : State) (p : Port) (x : Byte) (pass : Bool) (st : Status) (act : State × Answer) :
    checked s (entryChecks s p [x] (pass, st)) act = editChecks s p (if pass then act else refuse s st) := by
  simp only [entryChecks, editChecks_eq_checked, checked_cons, checked_nil, List.length_singleton, decide_true, if_true]

theorem checked_entryChecks_badLength (s : State) (p : Port) {payload : List Byte} (h : payload.length ≠ 1)
    (own : Bool × Status) (act : State × Answer) :
    checked s (entryChecks s p payload own) act = refuse s .badLength := by
  rw [entryChecks, checked_cons, decide_eq_false h, if_neg Bool.false_ne_true]

/-- CLAIM takes an unowned entry and leaves one that is the port's already (R49). -/
theorem claim_eq (s : State) (p : Port) (b : List Byte) :
    let owner := (s.shadowEntry (entryNo b)).owner
    claim s p b = checked s (entryChecks s p b (owner == none || owner == some p, .taken))
      (if owner = none then reply (s.putEntry (entryNo b) ⟨none, some p⟩) .ok [] else reply s .ok []) := by
  match b with
  | [] | _ :: _ :: _ => exact (checked_entryChecks_badLength s p (by simp) _ _).symm
  | [x] =>
    dsimp only
    rw [checked_entryChecks_index]
    simp only [claim, entryNo, List.getD_cons_zero]
    congr 1
    cases (s.shadowEntry (entryOf x)).owner with
    | none => rfl
    | some q => simp

/-- CLEAR_ENTRY empties an entry of the port and leaves it its owner (R51). -/
theorem clearEntry_eq (s : State) (p : Port) (b : List Byte) :
    clearEntry s p b = checked s (entryChecks s p b ((s.shadowEntry (entryNo b)).owner == some p, .notOwner))
      (reply (s.putEntry (entryNo b) ⟨none, some p⟩) .ok []) := by
  match b with
  | [] | _ :: _ :: _ => exact (checked_entryChecks_badLength s p (by simp) _ _).symm
  | [x] =>
    rw [checked_entryChecks_index]
    simp [clearEntry, entryNo]

/-- DISOWN empties an entry of the port and leaves it without an owner (R52). -/
theorem disown_eq (s : State) (p : Port) (b : List Byte) :
    disown s p b = checked s (entryChecks s p b ((s.shadowEntry (entryNo b)).owner == some p, .notOwner))
      (reply (s.putEntry (entryNo b) ⟨none, none⟩) .ok []) := by
  match b with
  | [] | _ :: _ :: _ => exact (checked_entryChecks_badLength s p (by simp) _ _).symm
  | [x] =>
    rw [checked_entryChecks_index]
    simp [disown, entryNo, Entry.unowned]

/-! ## What an edit does -/

/-- A command is answered OK and makes the shadow entry of index `n` the entry `e`; no other entry, neither header and
nothing of the active bank changes. -/
def EditsEntry (i : Instr) (s : State) (p : Port) (n : Nat) (e : Entry) : Prop :=
  ∃ t j, exec i s = .next t ∧ Answers s t p (.reply .ok []) ∧ ChangesOnly s t [.link, .cal] ∧ j.val = n ∧
    t.cal.active = s.cal.active ∧ t.cal.activeBank = s.cal.activeBank ∧ t.cal.shadow.header = s.cal.shadow.header ∧
    OnlyAtIndex j s.cal.shadow.entries t.cal.shadow.entries ∧ t.shadowEntry j = e

section

variable {i : Instr} {p : Port} {s : State} {act : State → State × Answer}

/-- A command whose block writes one shadow entry and answers OK edits that entry. -/
theorem editsEntry_of_act {j : EntryId} {e : Entry} (he : exec i s = command i p s act) (ht : s.takes i = true)
    (ha : act s = reply (s.putEntry j e) .ok []) : EditsEntry i s p j.val e := by
  refine ⟨(s.putEntry j e).answer p (.reply .ok []), j, ?_, answers_answer (s.putEntry j e) p _, ?_, rfl, ?_⟩
  · rw [he, command_takes ht, ha]
    rfl
  · exact ((s.putEntry_changes j e).mono (by simp)).comp ((State.answer_changes _ p _).mono (by simp))
  · have others : OnlyAtIndex j s.cal.shadow.entries (s.cal.shadow.entries.put j e) := fun k hk => by simp [hk]
    simpa using others

/-- A command whose block makes checks in order, of which one fails, is refused. -/
theorem justAnswers_of_failing {checks : List (Bool × Status)} {done : State × Answer} {st : Status}
    (he : exec i s = command i p s act) (ht : s.takes i = true) (ha : act s = checked s checks done)
    (hf : firstFailing checks = some st) : JustAnswers i s p st [] :=
  justAnswers_of_act he ht (ha.trans (checked_of_some hf done))

end

/-! ## CLAIM, CLEAR_ENTRY and DISOWN as commands -/

theorem exec_claim (p : Port) (b : List Byte) (s : State) :
    exec (.claim p b) s = command (.claim p b) p s fun s => claim s p b := rfl

theorem exec_clearEntry (p : Port) (b : List Byte) (s : State) :
    exec (.clearEntry p b) s = command (.clearEntry p b) p s fun s => clearEntry s p b := rfl

theorem exec_disown (p : Port) (b : List Byte) (s : State) :
    exec (.disown p b) s = command (.disown p b) p s fun s => disown s p b := rfl

/-- CLEAR_ENTRY and DISOWN differ in the owner they leave alone: each empties the port's own entry after the same
checks. -/
theorem exec_emptying {s : State} {p : Port} {b : List Byte} {i : Instr} {kept : Option Port}
    (hi : (i = .clearEntry p b ∧ kept = some p) ∨ (i = .disown p b ∧ kept = none)) :
    ∃ act : State → State × Answer, exec i s = command i p s act ∧
      act s = checked s (entryChecks s p b ((s.shadowEntry (entryNo b)).owner == some p, .notOwner))
        (reply (s.putEntry (entryNo b) ⟨none, kept⟩) .ok []) := by
  rcases hi with ⟨rfl, rfl⟩ | ⟨rfl, rfl⟩
  · exact ⟨_, exec_clearEntry p b s, clearEntry_eq s p b⟩
  · exact ⟨_, exec_disown p b s, disown_eq s p b⟩

/-- Settles O40: each of the three commands is its checks in order and then at most one write to the shadow bank. -/
theorem entriesAreClaimedClearedDisowned : Obligations.EntriesAreClaimedClearedDisowned := by
  unfold Obligations.EntriesAreClaimedClearedDisowned
  refine ⟨fun s p b ht => ?_, fun s p b i kept ht hi => ?_⟩
  · rw [shadowNo_byteAt]
    have claims := claim_eq s p b
    dsimp only at claims ⊢
    split
    next st failing => exact justAnswers_of_failing (exec_claim p b s) ht claims failing
    next passing =>
      have acts := claims.trans (checked_of_none passing _)
      refine ⟨fun own => ?_, fun unowned => ?_⟩
      · rw [own, if_neg (by simp)] at acts
        exact justAnswers_of_act (exec_claim p b s) ht acts
      · rw [if_pos unowned] at acts
        exact editsEntry_of_act (exec_claim p b s) ht acts
  · rw [shadowNo_byteAt]
    obtain ⟨act, runs, empties⟩ := exec_emptying (s := s) hi
    split
    next st failing => exact justAnswers_of_failing runs ht empties failing
    next passing => exact editsEntry_of_act runs ht (empties.trans (checked_of_none passing _))

end Sys2Proof.Machine
end

section
/-! PROOFS. The commands of the Plan Coordinator about a standing proposal: VOTE, WITHDRAW and PLAN_STATUS
(04_plan_proposals.md, R65, R66, R68, R70, R77). Each is a list of checks made in order before at most one change of the
proposal record. -/

namespace Sys2Proof.Machine

open Sys2Proof

/-! ## Checks made in order, refused with the plan summary -/

/-- The Plan Coordinator makes checks in order, refuses with the status of the first that fails and the plan summary
(R61), and acts when all pass. -/
def checkedSummary (s : State) (checks : List (Bool × Status)) (act : State × Answer) : State × Answer :=
  match firstFailing checks with
  | some st => replySummary s st
  | none => act

section

variable {s : State} {checks : List (Bool × Status)} {act : State × Answer}

@[simp] theorem checkedSummary_nil : checkedSummary s [] act = act := rfl

@[simp] theorem checkedSummary_cons (pass : Bool) (st : Status) :
    checkedSummary s ((pass, st) :: checks) act = if pass then checkedSummary s checks act else replySummary s st := by
  cases pass <;> rfl

theorem checkedSummary_of_some {st : Status} (h : firstFailing checks = some st) (act : State × Answer) :
    checkedSummary s checks act = (s, .reply st s.plan.summary) := by
  unfold checkedSummary
  rw [h]
  rfl

theorem checkedSummary_of_none (h : firstFailing checks = none) (act : State × Answer) :
    checkedSummary s checks act = act := by
  unfold checkedSummary
  rw [h]

theorem checkedSummary_member (p : Port) :
    checkedSummary s ((s.inRun, .wrongState) :: (s.online p, .notMember) :: checks) act =
      memberElse s p s.plan.summary (checkedSummary s checks act) := by
  simp only [checkedSummary_cons, memberElse]
  cases s.inRun <;> cases s.online p <;> rfl

theorem checkedSummary_badLength {pass : Bool} (h : pass = false) :
    checkedSummary s ((pass, .badLength) :: checks) act = replySummary s .badLength := by
  rw [h]
  rfl

end

/-! ## What a command that passes its checks does -/

section

variable {i : Instr} {p : Port} {s u : State} {act : State → State × Answer}

/-- A command whose block makes checks in order, of which one fails, is refused with the plan summary. -/
theorem justAnswers_summary_of_failing {checks : List (Bool × Status)} {done : State × Answer} {st : Status}
    (he : exec i s = command i p s act) (ht : s.takes i = true) (ha : act s = checkedSummary s checks done)
    (hf : firstFailing checks = some st) : JustAnswers i s p st s.plan.summary :=
  justAnswers_of_act he ht (ha.trans (checkedSummary_of_some hf done))

/-- A command whose block leaves `u`, with no part changed but those named, and answers its plan summary. -/
theorem answers_summary_of_act {parts : List Part} {st : Status} (he : exec i s = command i p s act)
    (ht : s.takes i = true) (ha : act s = replySummary u st) (hu : ChangesOnly s u parts) (hl : Part.link ∉ parts) :
    exec i s = .next (u.answer p (.reply st u.plan.summary)) ∧
      Answers s (u.answer p (.reply st u.plan.summary)) p (.reply st u.plan.summary) ∧
      ChangesOnly s (u.answer p (.reply st u.plan.summary)) (.link :: parts) := by
  refine ⟨by rw [he, command_takes ht, ha]; rfl, ?_, ?_⟩
  · have same : u.link = s.link := hu.link hl
    have answered := answers_answer u p (.reply st u.plan.summary)
    unfold Answers at answered ⊢
    rwa [same] at answered
  · exact hu.trans (u.answer_changes p _) (fun _ h => List.mem_cons_of_mem _ h) (by simp)

end

/-! ## Decisions -/

@[simp] theorem State.decidePlan_plan (s : State) (r : Proposal) (o : PlanOutcome) :
    (s.decidePlan r o).plan = { s.plan with proposal := none, last := some ⟨r.number, o⟩ } := by
  simp [State.decidePlan]

/-- R70: PLAN_DECIDED is raised to the proposer and each voter that is ONLINE. -/
theorem State.decidePlan_raises (s : State) (r : Proposal) (o : PlanOutcome) :
    RaisedTo s (s.decidePlan r o) .planDecided
      (Port.all.filter fun q => (q == r.proposer || r.voters.get q) && s.online q) := by
  have members : r.members.filter s.online =
      Port.all.filter fun q => (q == r.proposer || r.voters.get q) && s.online q := by
    simp [Proposal.members, List.filter_filter, Bool.and_comm]
  rw [← members]
  exact State.raiseAll_att .planDecided (r.members.filter s.online)
    { s with plan := { s.plan with last := some ⟨r.number, o⟩ } } ((Port.nodup_all.filter _).filter _)

theorem State.decided_decidePlan (s : State) (r : Proposal) (o : PlanOutcome) : Decided s (s.decidePlan r o) r o :=
  ⟨s.decidePlan_plan r o, s.decidePlan_raises r o⟩

/-! ## VOTE -/

theorem exec_vote (p : Port) (b : List Byte) (s : State) :
    exec (.vote p b) s = command (.vote p b) p s fun s => vote s p b := rfl

/-- The checks of Table 4-6. -/
def voteChecks (s : State) (p : Port) (b : List Byte) : List (Bool × Status) :=
  [(decide (b.length = 2), .badLength), (s.inRun, .wrongState), (s.online p, .notMember),
    (decide (byteAt b 1 = 1 ∨ byteAt b 1 = 2), .badArgument), (s.plan.proposal.isSome, .noProposal),
    (s.plan.proposal.any fun r => r.number.toNat == byteAt b 0, .staleNumber),
    (s.plan.proposal.any fun r => r.voters.get p, .notVoter),
    (s.plan.proposal.any fun r => !r.yes.get p || byteAt b 1 == 1, .voteConflict)]

/-- The choice of a VOTE whose choice byte is the code of one. -/
def choiceAt (b : List Byte) : Choice := if byteAt b 1 = 1 then .yes else .no

@[simp] theorem choiceAt_eq_yes (b : List Byte) : choiceAt b = .yes ↔ byteAt b 1 = 1 := by
  unfold choiceAt
  split <;> simp [*]

/-- The codes of the choices are 1 and 2. -/
theorem choiceOf_eq (number choice : Byte) :
    choiceOf choice = if byteAt [number, choice] 1 = 1 ∨ byteAt [number, choice] 1 = 2 then
      some (choiceAt [number, choice]) else none := by
  have byte : byteAt [number, choice] 1 = choice.toNat := rfl
  have one : choice = 1 ↔ choice.toNat = 1 := BitVec.toNat_inj.symm
  have two : choice = 2 ↔ choice.toNat = 2 := BitVec.toNat_inj.symm
  simp only [choiceOf, choiceAt, byte, one, two]
  by_cases h1 : choice.toNat = 1 <;> simp [h1]

/-- What a VOTE that passes its checks does to the proposal `r`: a repeated YES nothing, a first vote what R66 gives. -/
def State.voteOn (s : State) (p : Port) (b : List Byte) (r : Proposal) : State :=
  if r.yes.get p then s else s.castVote r p (choiceAt b)

/-- R65: VOTE is the checks of Table 4-6 and then the vote. -/
theorem vote_eq (s : State) (p : Port) (b : List Byte) :
    vote s p b = checkedSummary s (voteChecks s p b)
      (replySummary (s.plan.proposal.elim s (s.voteOn p b)) .ok) := by
  match b with
  | [] | [_] | _ :: _ :: _ :: _ => exact (checkedSummary_badLength (by simp)).symm
  | [number, choice] =>
    have length : decide ([number, choice].length = 2) = true := rfl
    rw [voteChecks, checkedSummary_cons, if_pos length, checkedSummary_member, vote, choiceOf_eq number choice]
    congr 1
    have byte0 : byteAt [number, choice] 0 = number.toNat := rfl
    by_cases coded : byteAt [number, choice] 1 = 1 ∨ byteAt [number, choice] 1 = 2
    · cases standing : s.plan.proposal with
      | none => simp [coded]
      | some r =>
        cases member : r.voters.get p <;> cases voted : r.yes.get p <;>
          simp [coded, byte0, BitVec.toNat_inj, State.voteOn, member, voted]
    · simp [coded]

/-- R66: the votes are complete with p's YES when every other voter has voted YES. -/
theorem Proposal.allYes_set (r : Proposal) (p : Port) :
    ({ r with yes := r.yes.set p true } : Proposal).allYes =
      Port.all.all fun q => !r.voters.get q || q == p || r.yes.get q := by
  unfold Proposal.allYes
  congr 1
  funext q
  by_cases h : q = p
  · simp [h]
  · simp [h, beq_eq_false_iff_ne.2 h]

/-- An update makes the proposal ACCEPTED when the votes are complete; an ACCEPTED one stays so. -/
theorem Proposal.update_eq (r : Proposal) :
    r.update = { r with state := if r.allYes then .accepted else r.state } := by
  obtain ⟨state, number, proposer, voters, yes, remaining⟩ := r
  cases state with
  | opened =>
    cases complete : Proposal.allYes ⟨.opened, number, proposer, voters, yes, remaining⟩ <;>
      simp [Proposal.update, complete]
  | accepted => simp [Proposal.update]

/-- R66: a YES is recorded, and the last one accepts the proposal. -/
theorem State.castVote_yes (s : State) (r : Proposal) (p : Port) :
    s.castVote r p .yes = s.setProposal { r with
      yes := r.yes.set p true
      state := if Port.all.all (fun q => !r.voters.get q || q == p || r.yes.get q) then .accepted else r.state } := by
  rw [← Proposal.allYes_set]
  exact congrArg s.setProposal (Proposal.update_eq _)

/-- R66: a NO rejects the proposal. -/
theorem State.castVote_no (s : State) (r : Proposal) (p : Port) :
    s.castVote r p .no = s.decidePlan r (.rejected p) := rfl

/-- Settles O44: VOTE is its checks in order; a repeated YES leaves the state alone and a first vote is cast. -/
theorem voteIsCast : Obligations.VoteIsCast := by
  unfold Obligations.VoteIsCast
  intro s p b ht
  have votes := vote_eq s p b
  dsimp only
  split
  next st failing => exact justAnswers_summary_of_failing (exec_vote p b s) ht votes failing
  next passing =>
    intro r standing
    have acts : vote s p b = replySummary (s.voteOn p b r) .ok := by
      rw [votes.trans (checkedSummary_of_none passing _), standing, Option.elim_some]
    refine ⟨fun voted => ?_, fun unvoted => ?_⟩
    · rw [State.voteOn, if_pos voted] at acts
      exact justAnswers_of_act (exec_vote p b s) ht acts
    · rw [State.voteOn, if_neg (by simp [unvoted])] at acts
      obtain ⟨runs, answers, changes⟩ :=
        answers_summary_of_act (exec_vote p b s) ht acts (s.castVote_changes r p _) (by simp)
      refine ⟨_, runs, answers, changes, fun yes => ?_, fun no => ?_⟩
      · rw [choiceAt, if_pos yes, State.castVote_yes]
        exact ⟨rfl, rfl⟩
      · rw [choiceAt, if_neg (by omega), State.castVote_no]
        exact s.decided_decidePlan r (.rejected p)

/-! ## WITHDRAW -/

theorem exec_withdraw (p : Port) (b : List Byte) (s : State) :
    exec (.withdraw p b) s = command (.withdraw p b) p s fun s => withdraw s p b := rfl

/-- The checks of Table 4-7. -/
def withdrawChecks (s : State) (p : Port) (b : List Byte) : List (Bool × Status) :=
  [(decide (b.length = 1), .badLength), (s.inRun, .wrongState), (s.online p, .notMember),
    (s.plan.proposal.isSome, .noProposal), (s.plan.proposal.any fun r => r.number.toNat == byteAt b 0, .staleNumber),
    (s.plan.proposal.any fun r => r.proposer == p, .notOwner)]

/-- R68: WITHDRAW is the checks of Table 4-7 and then the decision. -/
theorem withdraw_eq (s : State) (p : Port) (b : List Byte) :
    withdraw s p b = checkedSummary s (withdrawChecks s p b)
      (replySummary (s.plan.proposal.elim s fun r => s.decidePlan r .withdrawnByProposer) .ok) := by
  match b with
  | [] | _ :: _ :: _ => exact (checkedSummary_badLength (by simp)).symm
  | [number] =>
    have length : decide ([number].length = 1) = true := rfl
    rw [withdrawChecks, checkedSummary_cons, if_pos length, checkedSummary_member]
    rw [withdraw]
    congr 1
    have byte0 : byteAt [number] 0 = number.toNat := rfl
    cases s.plan.proposal with
    | none => rfl
    | some r => simp [byte0, BitVec.toNat_inj]

/-- Settles O45: WITHDRAW is its checks in order and then the decision of R70. -/
theorem withdrawDecidesProposal : Obligations.WithdrawDecidesProposal := by
  unfold Obligations.WithdrawDecidesProposal
  intro s p b ht
  have withdraws := withdraw_eq s p b
  dsimp only
  split
  next st failing => exact justAnswers_summary_of_failing (exec_withdraw p b s) ht withdraws failing
  next passing =>
    intro r standing
    have acts : withdraw s p b = replySummary (s.decidePlan r .withdrawnByProposer) .ok := by
      rw [withdraws.trans (checkedSummary_of_none passing _), standing, Option.elim_some]
    obtain ⟨runs, answers, changes⟩ :=
      answers_summary_of_act (exec_withdraw p b s) ht acts (s.decidePlan_changes r _) (by simp)
    exact ⟨_, runs, answers, changes, s.decided_decidePlan r .withdrawnByProposer⟩

/-! ## PLAN_STATUS -/

theorem byteAt_append_left {l m : List Byte} {i : Nat} (h : i < l.length) : byteAt (l ++ m) i = byteAt l i :=
  congrArg BitVec.toNat (List.getD_append l m 0 i h)

theorem byteAt_append_right {l m : List Byte} {i : Nat} (h : l.length ≤ i) :
    byteAt (l ++ m) i = byteAt m (i - l.length) :=
  congrArg BitVec.toNat (List.getD_append_right l m 0 i h)

theorem byteAt_zeros (n i : Nat) : byteAt (List.replicate n 0) i = 0 :=
  congrArg BitVec.toNat (List.getElem?_getD_replicate_default_eq 0 n i)

theorem byteOf_toNat (n : Nat) : (byteOf n).toNat = n % 256 := BitVec.toNat_ofNat n 8

theorem portByte_toNat (p : Port) : (portByte p).toNat = p.toNat := by cases p <;> rfl

/-- A flag put at bit `i` of a byte is that bit, and no other bit is set. -/
theorem bitOf_getLsbD (b : Bool) {i j : Nat} (hj : j < 8) : (bitOf b i).getLsbD j = (b && decide (i = j)) := by
  cases b with
  | false => simp [bitOf]
  | true => simp only [bitOf, if_true, BitVec.getLsbD_ofNat, Nat.testBit_two_pow, hj, decide_true, Bool.true_and]

/-- R178: bit p of a set of ports is set exactly when port Pp is in the set. -/
theorem portSetByte_getLsbD (t : PortSet) (q : Port) : (portSetByte t).getLsbD q.toNat = t.get q := by
  have inByte : q.toNat < 8 := by cases q <;> decide
  simp only [portSetByte, BitVec.getLsbD_or, bitOf_getLsbD _ inByte]
  cases q <;> simp [Port.toNat, PerPort.get]

theorem portSetByte_bit (t : PortSet) (q : Port) :
    (portSetByte t).toNat / 2 ^ q.toNat % 2 = (t.get q).toNat := by
  rw [← portSetByte_getLsbD, BitVec.getLsbD, Nat.toNat_testBit]

@[simp] theorem proposalBytes_length (r? : Option Proposal) : (proposalBytes r?).length = 5 := by cases r? <;> rfl

@[simp] theorem lastBytes_length (o? : Option LastOutcome) : (lastBytes o?).length = 4 := by cases o? <;> rfl

theorem planStatusBytes_length (s : State) : (planStatusBytes s).length = 12 := by
  simp [planStatusBytes]

/-- Bytes 0 to 5 of PLAN_STATUS are about the standing proposal. -/
theorem planStatusBytes_proposal (s : State) {j : Nat} (h : j < 6) :
    byteAt (planStatusBytes s) j =
      byteAt (proposalStateCode s.plan.proposal :: proposalBytes s.plan.proposal) j := by
  rw [planStatusBytes, byteAt_append_left (by simp; omega),
    byteAt_append_left (by simp; omega)]

/-- Bytes 6 to 9 of PLAN_STATUS are the last-outcome record. -/
theorem planStatusBytes_last (s : State) {j : Nat} (low : 6 ≤ j) (high : j < 10) :
    byteAt (planStatusBytes s) j = byteAt (lastBytes s.plan.last) (j - 6) := by
  rw [planStatusBytes, byteAt_append_left (by simp; omega),
    byteAt_append_right (by simp; omega)]
  simp

/-- Bytes 10 and 11 of PLAN_STATUS are the proposal number counter and the proposal deadline. -/
theorem planStatusBytes_counters (s : State) {j : Nat} (low : 10 ≤ j) :
    byteAt (planStatusBytes s) j = byteAt [s.plan.nextNumber, byteOf s.mbc.deadline] (j - 10) := by
  rw [planStatusBytes, byteAt_append_right (by simp; omega)]
  simp

/-- With no proposal standing its bytes are zeros. -/
theorem byteAt_proposalBytes_none (j : Nat) : byteAt (proposalStateCode none :: proposalBytes none) j = 0 :=
  byteAt_zeros 6 j

theorem byteAt_lastBytes_none (j : Nat) : byteAt (lastBytes none) j = 0 :=
  byteAt_zeros 4 j

theorem proposalStateCode_some (r : Proposal) :
    (proposalStateCode (some r)).toNat = if r.state = .opened then 1 else 2 := by
  obtain ⟨state, number, proposer, voters, yes, remaining⟩ := r
  cases state <;> rfl

/-- Bytes 0 to 5 of PLAN_STATUS while a proposal stands. -/
theorem planStatusBytes_of_standing {s : State} {r : Proposal} (standing : s.plan.proposal = some r) {j : Nat}
    (h : j < 6) : byteAt (planStatusBytes s) j =
      byteAt [proposalStateCode (some r), r.number, portByte r.proposer, portSetByte r.voters, portSetByte r.yes,
        byteOf r.remaining] j := by
  rw [planStatusBytes_proposal s h, standing]
  rfl

/-- Bytes 6 to 9 of PLAN_STATUS once a proposal has been decided. -/
theorem planStatusBytes_of_decided {s : State} {o : LastOutcome} (decided : s.plan.last = some o) {j : Nat}
    (low : 6 ≤ j) (high : j < 10) : byteAt (planStatusBytes s) j =
      byteAt [1, o.number, o.outcome.code, o.outcome.cause] (j - 6) := by
  rw [planStatusBytes_last s low high, decided]
  rfl

/-- R61: the plan summary is bytes 0, 1 and 6 to 9 of PLAN_STATUS. -/
theorem summary_eq_planStatusBytes (s : State) :
    s.plan.summary.map BitVec.toNat = [byteAt (planStatusBytes s) 0, byteAt (planStatusBytes s) 1,
      byteAt (planStatusBytes s) 6, byteAt (planStatusBytes s) 7, byteAt (planStatusBytes s) 8,
      byteAt (planStatusBytes s) 9] := by
  simp (disch := omega) only [planStatusBytes_proposal, planStatusBytes_last, Plan.summary]
  cases s.plan.proposal <;> cases s.plan.last <;> rfl

theorem exec_planStatus (p : Port) (b : List Byte) (s : State) :
    exec (.planStatus p b) s = command (.planStatus p b) p s fun s => planStatus s b := rfl

/-- R77: PLAN_STATUS is its two checks and then the bytes of Table 11-20. -/
theorem planStatus_eq (s : State) (b : List Byte) :
    planStatus s b = checked s [(decide (b = []), .badLength), (s.inRun, .wrongState)]
      (reply s .ok (planStatusBytes s)) := by
  match b with
  | _ :: _ => rfl
  | [] =>
    simp only [planStatus, checked_cons, checked_nil]
    cases s.inRun <;> rfl

/-- Settles O46: PLAN_STATUS is its checks in order and then the bytes of Table 11-20, part by part. -/
theorem planStatusReportsPlan : Obligations.PlanStatusReportsPlan := by
  unfold Obligations.PlanStatusReportsPlan
  intro s p b ht
  have status := planStatus_eq s b
  split
  next st failing => exact justAnswers_of_failing (exec_planStatus p b s) ht status failing
  next passing =>
    have answered := justAnswers_of_act (exec_planStatus p b s) ht (status.trans (checked_of_none passing _))
    refine ⟨planStatusBytes s, answered, planStatusBytes_length s, summary_eq_planStatusBytes s,
      fun absent j hj => ?_, fun r standing => ?_, fun absent j low high => ?_, fun o decided => ?_,
      planStatusBytes_counters s (by omega), ?_⟩
    · rw [planStatusBytes_proposal s hj, absent, byteAt_proposalBytes_none]
    · simp (disch := omega) only [planStatusBytes_of_standing standing]
      exact ⟨proposalStateCode_some r, rfl, portByte_toNat _, fun q => ⟨portSetByte_bit _ q, portSetByte_bit _ q⟩,
        byteOf_toNat _⟩
    · rw [planStatusBytes_last s low high, absent, byteAt_lastBytes_none]
    · simp (disch := omega) only [planStatusBytes_of_decided decided]
      refine ⟨rfl, rfl, ?_⟩
      obtain ⟨number, outcome⟩ := o
      cases outcome with
      | rejected q => exact congrArg (Prod.mk 1) (portByte_toNat q)
      | _ => rfl
    · rw [planStatusBytes_counters s (by omega)]
      exact byteOf_toNat _

end Sys2Proof.Machine
end

section
/-! PROOFS. GET_REPORT (08_delivery_reports.md, R132): the checks of Table 8-5 in order, then the removal of the oldest
record, answered at the offsets of Table 11-19. -/

namespace Sys2Proof.Machine

open Sys2Proof

/-! ## Commands that act and answer -/

section

variable {i : Instr} {p : Port} {s u : State} {act : State → State × Answer}

/-- A command whose block leaves `u`, with no part changed but those named, and answers a status and a payload. -/
theorem answers_reply_of_act {parts : List Part} {st : Status} {payload : List Byte}
    (he : exec i s = command i p s act) (ht : s.takes i = true) (ha : act s = reply u st payload)
    (hu : ChangesOnly s u parts) (hl : Part.link ∉ parts) :
    exec i s = .next (u.answer p (.reply st payload)) ∧
      Answers s (u.answer p (.reply st payload)) p (.reply st payload) ∧
      ChangesOnly s (u.answer p (.reply st payload)) (.link :: parts) := by
  refine ⟨by rw [he, command_takes ht, ha]; rfl, ?_, ?_⟩
  · have answered := answers_answer u p (.reply st payload)
    unfold Answers at answered ⊢
    rwa [hu.link hl] at answered
  · exact hu.trans (u.answer_changes p _) (fun _ h => List.mem_cons_of_mem _ h) (by simp)

theorem checked_member {checks : List (Bool × Status)} {done : State × Answer} (p : Port) :
    checked s ((s.inRun, .wrongState) :: (s.online p, .notMember) :: checks) done =
      memberOnly s p (checked s checks done) := by
  simp only [checked_cons, memberOnly, memberElse]
  cases s.inRun <;> cases s.online p <;> rfl

end

/-! ## Sixteen-bit fields -/

@[simp] theorem le16_length (n : Nat) : (le16 n).length = 2 := rfl

/-- R168: a 16-bit field whose two bytes are those of a number, least significant first, is the number cut to the
field. -/
theorem halfAt_of_bytes {b : List Byte} {i n : Nat} (low : byteAt b i = (byteOf n).toNat)
    (high : byteAt b (i + 1) = (byteOf (n / 256)).toNat) : halfAt b i = n % 65536 := by
  rw [halfAt, low, high, byteOf_toNat, byteOf_toNat]
  omega

theorem halfAt_of_half_bytes {b : List Byte} {i : Nat} {h : Half} (low : byteAt b i = (byteOf h.toNat).toNat)
    (high : byteAt b (i + 1) = (byteOf (h.toNat / 256)).toNat) : halfAt b i = h.toNat := by
  rw [halfAt_of_bytes low high, Nat.mod_eq_of_lt h.isLt]

/-! ## The bytes of a report -/

@[simp] theorem stampBytes_length (t? : Option Stamp) : (stampBytes t?).length = 4 := by cases t? <;> rfl

theorem reportBytes_length (r : Report) (count : Nat) : (reportBytes r count).length = 17 := by
  simp [reportBytes]

theorem reportBytes_desc (r : Report) (count : Nat) : byteAt (reportBytes r count) 0 = r.desc.val :=
  (byteOf_toNat _).trans (Nat.mod_eq_of_lt r.desc.isLt)

theorem reportBytes_lane (r : Report) (count : Nat) : byteAt (reportBytes r count) 1 = r.lane.val :=
  (byteOf_toNat _).trans (Nat.mod_eq_of_lt (r.lane.isLt.trans (by decide)))

theorem reportBytes_label (r : Report) (count : Nat) : halfAt (reportBytes r count) 2 = r.label.toNat :=
  halfAt_of_half_bytes rfl rfl

theorem reportBytes_outcome (r : Report) (count : Nat) : byteAt (reportBytes r count) 4 = r.outcome.code.toNat := rfl

theorem reportBytes_finalState (r : Report) (count : Nat) (q : Port) :
    byteAt (reportBytes r count) (5 + q.toNat) = (r.finalStates.get q).code.toNat := by cases q <;> rfl

theorem reportBytes_submitCycle (r : Report) (count : Nat) :
    halfAt (reportBytes r count) 9 = r.submitCycle.toNat := halfAt_of_half_bytes rfl rfl

/-- Bytes 11 to 14 of a report are its stamp. -/
theorem reportBytes_stamp (r : Report) (count : Nat) {j : Nat} (low : 11 ≤ j) (high : j < 15) :
    byteAt (reportBytes r count) j = byteAt (stampBytes r.stamp) (j - 11) := by
  rw [reportBytes, byteAt_append_left (by simp; omega), byteAt_append_right (by simp; omega)]
  simp

/-- Bytes 15 and 16 of a report are the total attempts and the report count. -/
theorem reportBytes_counts (r : Report) (count : Nat) {j : Nat} (low : 15 ≤ j) :
    byteAt (reportBytes r count) j = byteAt [byteOf r.attempts, byteOf count] (j - 15) := by
  rw [reportBytes, byteAt_append_right (by simp; omega)]
  simp

theorem reportBytes_unstamped {r : Report} (absent : r.stamp = none) (count : Nat) :
    byteAt (reportBytes r count) 11 = 0 := by
  rw [reportBytes_stamp r count (by omega) (by omega), absent]
  rfl

theorem reportBytes_stamped {r : Report} {st : Stamp} (stamped : r.stamp = some st) (count : Nat) :
    byteAt (reportBytes r count) 11 = 1 ∧ halfAt (reportBytes r count) 12 = st.cycle.toNat ∧
      byteAt (reportBytes r count) 14 = st.slot.toNat := by
  have field {j : Nat} (low : 11 ≤ j) (high : j < 15) :
      byteAt (reportBytes r count) j = byteAt (stampBytes (some st)) (j - 11) :=
    stamped ▸ reportBytes_stamp r count low high
  have cycle := halfAt_of_half_bytes (field (j := 12) (by omega) (by omega)) (field (by omega) (by omega))
  exact ⟨field (by omega) (by omega), cycle, field (by omega) (by omega)⟩

theorem reportBytes_attempts (r : Report) (count : Nat) : byteAt (reportBytes r count) 15 = r.attempts % 256 :=
  (reportBytes_counts r count (by omega)).trans (byteOf_toNat _)

theorem reportBytes_count (r : Report) (count : Nat) : byteAt (reportBytes r count) 16 = count % 256 :=
  (reportBytes_counts r count (by omega)).trans (byteOf_toNat _)

/-! ## GET_REPORT -/

theorem exec_getReport (p : Port) (b : List Byte) (s : State) :
    exec (.getReport p b) s = command (.getReport p b) p s fun s => getReport s p b := rfl

/-- The checks of Table 8-5. -/
def getReportChecks (s : State) (p : Port) (b : List Byte) : List (Bool × Status) :=
  [(decide (b = []), .badLength), (s.inRun, .wrongState), (s.online p, .notMember),
    ((s.rpt.get p).queue != [], .empty)]

/-- The removal of the oldest record of a report queue, answered with it; an empty queue has none. -/
def State.takeOldest (s : State) (p : Port) : List Report → State × Answer
  | [] => refuse s .empty
  | r :: rest => reply (s.modRpt p fun t => { t with queue := rest }) .ok (reportBytes r rest.length)

/-- R132: GET_REPORT is the checks of Table 8-5 and then the removal of the oldest record. -/
theorem getReport_eq (s : State) (p : Port) (b : List Byte) :
    getReport s p b = checked s (getReportChecks s p b) (s.takeOldest p (s.rpt.get p).queue) := by
  match b with
  | _ :: _ => rfl
  | [] =>
    have length : decide (([] : List Byte) = []) = true := rfl
    rw [getReportChecks, checked_cons, if_pos length, checked_member, getReport]
    congr 1
    cases (s.rpt.get p).queue <;> rfl

/-- Settles O34: GET_REPORT is its checks in order and then the removal of the head of the queue, answered field by
field. -/
theorem getReportTakesOldest : Obligations.GetReportTakesOldest := by
  unfold Obligations.GetReportTakesOldest
  intro s p b ht
  have takes := getReport_eq s p b
  split
  next st failing => exact justAnswers_of_failing (exec_getReport p b s) ht takes failing
  next passing =>
    intro r rest head
    have acts := takes.trans (checked_of_none passing _)
    rw [head] at acts
    obtain ⟨runs, answers, changes⟩ :=
      answers_reply_of_act (exec_getReport p b s) ht acts (s.modRpt_changes p _) (by simp)
    refine ⟨_, _, runs, answers, changes, fun q other => by simp [other], by simp, reportBytes_length r _,
      reportBytes_desc r _, reportBytes_lane r _, reportBytes_label r _, ?_, reportBytes_finalState r _,
      reportBytes_submitCycle r _, fun absent => reportBytes_unstamped absent _,
      fun st stamped => reportBytes_stamped stamped _, reportBytes_attempts r _, reportBytes_count r _⟩
    rw [reportBytes_outcome]
    cases r.outcome <;> rfl

end Sys2Proof.Machine
end

section
/-! PROOFS. CLEAR_EVENTS (09_attention_events_and_counters.md, R141): the number of the snapshot held clears the kinds of
that snapshot whose renewed mark is clear, and consumes it. -/

namespace Sys2Proof.Machine

open Sys2Proof

/-! ## Clearing the kinds of a snapshot -/

section

variable (a : Att) (sn : Snapshot)

theorem Att.clearKinds_latched : (a.clearKinds sn).latched = a.latched &&& ~~~ a.clearable sn := rfl

@[simp] theorem Att.clearKinds_renewed : (a.clearKinds sn).renewed = a.renewed := rfl

@[simp] theorem Att.clearKinds_mask : (a.clearKinds sn).mask = a.mask := rfl

@[simp] theorem Att.clearKinds_snapshot : (a.clearKinds sn).snapshot = none := rfl

@[simp] theorem Att.clearKinds_nextSnapshot : (a.clearKinds sn).nextSnapshot = a.nextSnapshot := rfl

theorem Att.clearKinds_attnLow : (a.clearKinds sn).attnLow = (a.clearKinds sn).attention := rfl

/-- R141: a kind stays latched unless it is in the snapshot and was not raised again. -/
theorem Att.has_clearKinds_latched (j : EventKind) : EventSet.has (a.clearKinds sn).latched j =
    (EventSet.has a.latched j && !(EventSet.has sn.kinds j && !EventSet.has a.renewed j)) := by
  rw [Att.clearKinds_latched, Att.clearable]
  simp only [EventSet.has_and, EventSet.has_not]

/-- The kinds that were latched and are to be cleared are those that are no longer latched. -/
theorem Att.latched_and_clearable :
    a.latched &&& a.clearable sn = a.latched &&& ~~~ (a.clearKinds sn).latched := by
  rw [Att.clearKinds_latched]
  ext i hi
  simp only [BitVec.getElem_and, BitVec.getElem_not]
  cases a.latched[i] <;> simp

/-- R138 after a clear: ATTN_N is low while a kind that stayed latched is in the mask. -/
theorem Att.clearKinds_attnLow_iff : (a.clearKinds sn).attnLow = true ↔
    ∃ j, EventSet.has (a.clearKinds sn).latched j = true ∧ EventSet.has a.mask j = true := by
  rw [Att.clearKinds_attnLow, Att.attention_iff, Att.clearKinds_mask]

end

/-! ## The bytes of event sets -/

@[simp] theorem eventSetBytes_length (k : EventSet) : (eventSetBytes k).length = 2 := rfl

/-- R178: a 16-bit field whose two bytes are those of an event set is that set. -/
theorem halfAt_of_eventSet_bytes {b : List Byte} {i : Nat} {k : EventSet} (low : byteAt b i = (byteOf k.toNat).toNat)
    (high : byteAt b (i + 1) = (byteOf (k.toNat / 256)).toNat) : halfAt b i = k.toNat := by
  rw [halfAt_of_bytes low high, Nat.mod_eq_of_lt (k.isLt.trans (by decide))]

theorem halfAt_eventSetBytes_first (k l : EventSet) : halfAt (eventSetBytes k ++ eventSetBytes l) 0 = k.toNat :=
  halfAt_of_eventSet_bytes rfl rfl

theorem halfAt_eventSetBytes_second (k l : EventSet) : halfAt (eventSetBytes k ++ eventSetBytes l) 2 = l.toNat :=
  halfAt_of_eventSet_bytes rfl rfl

/-! ## CLEAR_EVENTS -/

theorem exec_clearEvents (p : Port) (b : List Byte) (s : State) :
    exec (.clearEvents p b) s = command (.clearEvents p b) p s fun s => clearEvents s p b := rfl

section

variable {s : State} {p : Port} {b : List Byte} {sn : Snapshot}

theorem clearEvents_badLength (h : b.length ≠ 1) : clearEvents s p b = refuse s .badLength := by
  match b with
  | [] | _ :: _ :: _ => rfl
  | [_] => exact absurd rfl h

theorem clearEvents_no_snapshot (h : b.length = 1) (absent : (s.att.get p).snapshot = none) :
    clearEvents s p b = refuse s .staleSnapshot := by
  obtain ⟨n, rfl⟩ := List.length_eq_one_iff.1 h
  rw [clearEvents, absent]

theorem clearEvents_other_number (h : b.length = 1) (held : (s.att.get p).snapshot = some sn)
    (other : b ≠ [sn.number]) : clearEvents s p b = reply s .staleSnapshot [sn.number] := by
  obtain ⟨n, rfl⟩ := List.length_eq_one_iff.1 h
  have differs : sn.number ≠ n := fun same => other (by rw [same])
  rw [clearEvents, held]
  exact if_pos differs

/-- R141: the number of the snapshot held clears its kinds, answered with the kinds cleared and those still latched. -/
theorem clearEvents_held_number (held : (s.att.get p).snapshot = some sn) :
    clearEvents s p [sn.number] = reply (s.modAtt p fun a => a.clearKinds sn) .ok
      (eventSetBytes ((s.att.get p).latched &&& ~~~ ((s.att.get p).clearKinds sn).latched) ++
        eventSetBytes ((s.att.get p).clearKinds sn).latched) := by
  rw [clearEvents, held, ← Att.latched_and_clearable]
  exact if_neg (not_not_intro rfl)

end

/-- Settles O37: CLEAR_EVENTS is refused at a wrong length, with no snapshot held and for another number, and otherwise
clears the kinds of the snapshot held. -/
theorem clearEventsConsumesSnapshot : Obligations.ClearEventsConsumesSnapshot := by
  unfold Obligations.ClearEventsConsumesSnapshot
  intro s p b ht
  have runs := exec_clearEvents p b s
  refine ⟨fun bad => justAnswers_of_act runs ht (clearEvents_badLength bad),
    fun one absent => justAnswers_of_act runs ht (clearEvents_no_snapshot one absent),
    fun sn one held => ⟨fun other => justAnswers_of_act runs ht (clearEvents_other_number one held other), ?_⟩⟩
  rintro rfl
  obtain ⟨next, answers, changes⟩ :=
    answers_reply_of_act runs ht (clearEvents_held_number held) (s.modAtt_changes p _) (by simp)
  refine ⟨_, _, next, answers, changes, fun q other => by simp [other], ?_⟩
  rw [State.answer_att, State.modAtt_att, PerPort.get_modify, if_pos rfl]
  exact ⟨Att.has_clearKinds_latched _ sn, Att.clearKinds_snapshot _ sn, Att.clearKinds_renewed _ sn,
    Att.clearKinds_mask _ sn, Att.clearKinds_nextSnapshot _ sn, Att.clearKinds_attnLow_iff _ sn, by simp,
    halfAt_eventSetBytes_first _ _, halfAt_eventSetBytes_second _ _⟩

end Sys2Proof.Machine
end

section
/-! PROOFS. STATUS (10_membership_and_start_up.md, R164): the length check, then the values of Table 10-7 at the offsets
of Table 11-17. -/

namespace Sys2Proof.Machine

open Sys2Proof

/-! ## Counts over a table -/


/-- A count over a table's list is the count over its indices. -/
theorem countP_toList {n : Nat} {α : Type} (t : Tbl n α) (f : α → Bool) :
    t.toList.countP f = (List.finRange n).countP fun i => f (t.at i) := by
  have listed : t.toList = (List.finRange n).map t.at :=
    List.ext_getElem (by simp) fun i _ _ => by simp [Tbl.at, Vector.get_eq_getElem]
  rw [listed, List.countP_map]
  rfl

theorem countP_finRange_le {n : Nat} (f : Fin n → Bool) : (List.finRange n).countP f ≤ n :=
  List.countP_le_length.trans_eq List.length_finRange

theorem State.freeDescriptors_eq (s : State) :
    s.freeDescriptors = (List.finRange 256).countP fun d => (s.desc d).isNone := countP_toList s.mst.desc _

/-! ## The port states byte -/

theorem PortState.code_lt (st : PortState) : st.code < 4 := by cases st <;> decide

/-- Table 11-17: port Pq's state stands in bits 2q + 1 and 2q of the port states byte. -/
theorem portStatesByte_field (t : PerPort PortState) (q : Port) :
    (portStatesByte t).toNat / 4 ^ q.toNat % 4 = (t.get q).code := by
  have h0 := t.p0.code_lt
  have h1 := t.p1.code_lt
  have h2 := t.p2.code_lt
  have h3 := t.p3.code_lt
  rw [portStatesByte, byteOf_toNat]
  cases q <;> simp only [Port.toNat, PerPort.get] <;> omega

/-! ## The bytes of STATUS -/

section

variable (s : State) (p : Port)

/-- Table 11-17, byte by byte. -/
theorem statusBytes_eq : statusBytes s p =
    [portByte p, s.mbc.exchange.code, portStatesByte s.mbc.ports, byteOf (s.params p).reserve,
      byteOf ((s.params p).reserve / 256), byteOf (s.params p).ceiling, byteOf ((s.params p).ceiling / 256),
      byteOf (s.params p).depth, byteOf (s.params p).watermark, byteOf (s.params p).leaseTime,
      byteOf ((s.params p).leaseTime / 256), byteOf (s.params p).redelivery, byteOf s.mbc.deadline,
      byteOf s.reserveSum, byteOf (s.reserveSum / 256), s.timer.state.code, byteOf s.timer.cycle.toNat,
      byteOf (s.timer.cycle.toNat / 256), s.timer.slot, byteOf s.timer.header.slots,
      byteOf (s.timer.header.slots / 256), byteOf s.timer.header.length, byteOf (s.timer.header.length / 256),
      byteOf s.freeCount, byteOf (s.freeCount / 256), byteOf s.freeDescriptors, byteOf (s.freeDescriptors / 256),
      byteOf (s.mst.held.get p), byteOf (s.mst.held.get p / 256), byteOf (s.rx.get p).queue.length,
      byteOf (s.rx.get p).heldSlots, byteOf (s.rpt.get p).queue.length] := by
  simp only [statusBytes, le16, List.cons_append, List.nil_append]

theorem statusBytes_length : (statusBytes s p).length = 32 := by
  rw [statusBytes_eq]
  rfl

theorem Exchange.code_toNat (e : Exchange) : e.code.toNat = if e == .run then 1 else 0 := by cases e <;> rfl

theorem TimerState.code_toNat (e : TimerState) : e.code.toNat = if e = .running then 1 else 0 := by cases e <;> rfl

/-- Bytes 0 to 2 of STATUS: the port, the exchange state and the port states. -/
theorem statusBytes_exchange : byteAt (statusBytes s p) 0 = p.toNat ∧
    byteAt (statusBytes s p) 1 = (if s.inRun then 1 else 0) ∧
    ∀ q, byteAt (statusBytes s p) 2 / 4 ^ q.toNat % 4 = (s.portState q).code := by
  have states : byteAt (statusBytes s p) 2 = (portStatesByte s.mbc.ports).toNat := by rw [statusBytes_eq]; rfl
  rw [states, statusBytes_eq]
  exact ⟨portByte_toNat p, s.mbc.exchange.code_toNat, portStatesByte_field s.mbc.ports⟩

/-- Bytes 3 to 14 of STATUS: the port's parameters, the proposal deadline and the sum of the reserves. -/
theorem statusBytes_params :
    halfAt (statusBytes s p) 3 = (s.params p).reserve % 65536 ∧
    halfAt (statusBytes s p) 5 = (s.params p).ceiling % 65536 ∧
    byteAt (statusBytes s p) 7 = (s.params p).depth % 256 ∧
    byteAt (statusBytes s p) 8 = (s.params p).watermark % 256 ∧
    halfAt (statusBytes s p) 9 = (s.params p).leaseTime % 65536 ∧
    byteAt (statusBytes s p) 11 = (s.params p).redelivery % 256 ∧
    byteAt (statusBytes s p) 12 = s.mbc.deadline % 256 ∧
    halfAt (statusBytes s p) 13 = (Port.sum fun q => (s.params q).reserve) % 65536 := by
  rw [statusBytes_eq]
  exact ⟨halfAt_of_bytes rfl rfl, halfAt_of_bytes rfl rfl, byteOf_toNat _, byteOf_toNat _, halfAt_of_bytes rfl rfl,
    byteOf_toNat _, byteOf_toNat _, halfAt_of_bytes rfl rfl⟩

/-- Bytes 15 to 22 of STATUS: the Cycle Timer. -/
theorem statusBytes_timer :
    byteAt (statusBytes s p) 15 = (if s.timer.state = .running then 1 else 0) ∧
    halfAt (statusBytes s p) 16 = s.timer.cycle.toNat ∧ byteAt (statusBytes s p) 18 = s.timer.slot.toNat ∧
    halfAt (statusBytes s p) 19 = s.timer.header.slots % 65536 ∧
    halfAt (statusBytes s p) 21 = s.timer.header.length % 65536 := by
  rw [statusBytes_eq]
  exact ⟨s.timer.state.code_toNat, halfAt_of_half_bytes rfl rfl, rfl, halfAt_of_bytes rfl rfl, halfAt_of_bytes rfl rfl⟩

/-- Bytes 23 to 31 of STATUS: what is free in the Message Store, and what the port holds. A count of descriptors or of
lease slots fits its field. -/
theorem statusBytes_counts :
    halfAt (statusBytes s p) 23 = s.mst.free.length % 65536 ∧
    halfAt (statusBytes s p) 25 = (List.finRange 256).countP (fun d => (s.desc d).isNone) ∧
    halfAt (statusBytes s p) 27 = s.mst.held.get p % 65536 ∧
    byteAt (statusBytes s p) 29 = (s.rx.get p).queue.length % 256 ∧
    byteAt (statusBytes s p) 30 = (List.finRange 4).countP (fun n => ((s.rx.get p).slots.at n).lease.isSome) ∧
    byteAt (statusBytes s p) 31 = (s.rpt.get p).queue.length % 256 := by
  have descriptors : s.freeDescriptors < 65536 := by
    rw [State.freeDescriptors_eq]
    exact (countP_finRange_le _).trans_lt (by decide)
  have slots : (s.rx.get p).heldSlots < 256 := (countP_finRange_le _).trans_lt (by decide)
  rw [statusBytes_eq, ← State.freeDescriptors_eq]
  exact ⟨halfAt_of_bytes rfl rfl, (halfAt_of_bytes rfl rfl).trans (Nat.mod_eq_of_lt descriptors),
    halfAt_of_bytes rfl rfl, byteOf_toNat _, (byteOf_toNat _).trans (Nat.mod_eq_of_lt slots), byteOf_toNat _⟩

/-! ## STATUS -/

theorem exec_status (b : List Byte) : exec (.status p b) s = command (.status p b) p s fun s => status s p b := rfl

/-- R164: STATUS is its length check and then the bytes of Table 11-17. -/
theorem status_eq (b : List Byte) :
    status s p b = checked s [(decide (b = []), .badLength)] (reply s .ok (statusBytes s p)) := by
  cases b <;> rfl

end

/-- Settles O14: STATUS is refused with a payload, and without one is answered with the bytes of Table 11-17. -/
theorem statusReportsPart : Obligations.StatusReportsPart := by
  unfold Obligations.StatusReportsPart
  intro s p b ht
  have reports := status_eq s p b
  refine ⟨fun payload => ?_, fun empty => ⟨statusBytes s p, ?_, statusBytes_length s p, ?_⟩⟩
  · rw [decide_eq_false payload] at reports
    exact justAnswers_of_failing (exec_status s p b) ht reports rfl
  · rw [decide_eq_true empty] at reports
    exact justAnswers_of_act (exec_status s p b) ht reports
  · obtain ⟨port, exchange, ports⟩ := statusBytes_exchange s p
    obtain ⟨reserve, ceiling, depth, watermark, lease, redelivery, deadline, sum⟩ := statusBytes_params s p
    obtain ⟨state, cycle, slot, slots, length⟩ := statusBytes_timer s p
    exact ⟨port, exchange, ports, reserve, ceiling, depth, watermark, lease, redelivery, deadline, sum, state, cycle,
      slot, slots, length, statusBytes_counts s p⟩

end Sys2Proof.Machine
end

section
/-! PROOFS. READY and UNREADY (10_membership_and_start_up.md, R155, R156): two checks in order, then at most one change of
the port's own mark. -/

namespace Sys2Proof.Machine

open Sys2Proof

/-- The checks of READY and of UNREADY. -/
def readyChecks (s : State) (b : List Byte) : List (Bool × Status) :=
  [(decide (b = []), .badLength), (!s.inRun, .wrongState)]

theorem checked_readyChecks_nil (s : State) (act : State × Answer) :
    checked s (readyChecks s []) act = if s.inRun then refuse s .wrongState else act := by
  simp only [readyChecks, checked_cons, checked_nil, decide_true, if_true]
  cases s.inRun <;> rfl

theorem State.inRun_of_readyChecks {s : State} {b : List Byte} (passing : firstFailing (readyChecks s b) = none) :
    s.inRun = false := by
  by_contra run
  cases b <;> simp [readyChecks, firstFailing, run] at passing

/-! ## READY -/

section

variable (s : State) (p : Port)

/-- The enabled ports but `p` that are OFFLINE. -/
def State.othersOffline : List Port := Port.all.filter fun q => q != p && s.portState q == .offline

/-- R155, part 1: an OFFLINE port becomes READY. -/
def State.markReady : State := if s.portState p = .offline then s.setPort p .ready else s

/-- Once the port has its mark, the ports still OFFLINE are the others. -/
theorem State.offlinePorts_markReady : (s.markReady p).offlinePorts = s.othersOffline p := by
  refine List.filter_congr fun q _ => ?_
  rw [State.markReady]
  by_cases own : q = p
  · subst own
    by_cases off : s.portState q = .offline <;> simp [off]
  · split <;> simp [own]

theorem exec_ready (b : List Byte) : exec (.ready p b) s = command (.ready p b) p s fun s => ready s p b := rfl

/-- R155, R157: READY is its checks and then the mark, with the start of RUN once the last OFFLINE port has set it. -/
theorem ready_eq (b : List Byte) :
    ready s p b = checked s (readyChecks s b)
      (reply (if s.portState p = .offline ∧ s.othersOffline p = [] then (s.markReady p).startRun else s.markReady p) .ok
        [byteOf (s.othersOffline p).length]) := by
  match b with
  | _ :: _ => rfl
  | [] =>
    rw [checked_readyChecks_nil, ← State.offlinePorts_markReady]
    rfl

/-! ## UNREADY -/

/-- R156: a READY port becomes OFFLINE, any other keeps its state. -/
theorem State.setPort_unready :
    s.setPort p (if s.portState p = .ready then .offline else s.portState p) =
      if s.portState p = .ready then s.setPort p .offline else s := by
  split
  · rfl
  · simp [State.setPort, State.portState]

theorem exec_unready (b : List Byte) : exec (.unready p b) s = command (.unready p b) p s fun s => unready s p b := rfl

/-- R156: UNREADY is its checks and then the port's state without the mark. -/
theorem unready_eq (b : List Byte) :
    unready s p b = checked s (readyChecks s b)
      (reply (s.setPort p (if s.portState p = .ready then .offline else s.portState p)) .ok []) := by
  match b with
  | _ :: _ => rfl
  | [] =>
    rw [checked_readyChecks_nil, State.setPort_unready]
    rfl

end

/-- Settles O17: READY and UNREADY are their checks in order and then at most one change of the port's own state. -/
theorem readyMarksAreSetAndTakenBack : Obligations.ReadyMarksAreSetAndTakenBack := by
  unfold Obligations.ReadyMarksAreSetAndTakenBack
  refine fun s p b => ⟨fun ht => ?_, fun ht => ?_⟩
  · have marks := ready_eq s p b
    split
    next st failing => exact justAnswers_of_failing (exec_ready s p b) ht marks failing
    next passing =>
      have acts := marks.trans (checked_of_none passing _)
      refine ⟨fun marked => ?_, fun off others => ?_⟩
      · rw [if_neg fun last => marked last.1, State.markReady, if_neg marked] at acts
        exact justAnswers_of_act (exec_ready s p b) ht acts
      · rw [if_neg fun last => others last.2, State.markReady, if_pos off] at acts
        obtain ⟨next, answers, changes⟩ :=
          answers_reply_of_act (exec_ready s p b) ht acts (s.setPort_changes p .ready) (by simp)
        have setup : (s.setPort p .ready).inRun = false := State.inRun_of_readyChecks passing
        exact ⟨_, next, answers, changes, by simp [State.formed_eq, setup], rfl⟩
  · have unmarks := unready_eq s p b
    split
    next st failing => exact justAnswers_of_failing (exec_unready s p b) ht unmarks failing
    next passing =>
      obtain ⟨next, answers, changes⟩ := answers_reply_of_act (exec_unready s p b) ht
        (unmarks.trans (checked_of_none passing _)) (s.setPort_changes p _) (by simp)
      exact ⟨_, next, answers, changes, rfl⟩

end Sys2Proof.Machine
end

section
/-! PROOFS. The clearing of READY marks by a setup change (10_membership_and_start_up.md, R152 to R154; 03_calendar_banks.md,
R53): each setup write, and SET_FRAME in SETUP, is a list of checks made in order before one write, and the write of a new
value clears the marks. -/

namespace Sys2Proof.Machine

open Sys2Proof

/-! ## Clearing every mark -/

/-- Clearing the marks of distinct ports makes each of them OFFLINE and raises READY_CLEARED once to each. -/
theorem foldl_clearReadyMark (ps : List Port) (s : State) (distinct : ps.Nodup) (q : Port) :
    (ps.foldl clearReadyMark s).portState q = (if q ∈ ps then .offline else s.portState q) ∧
    (ps.foldl clearReadyMark s).att.get q = if q ∈ ps then (s.att.get q).raise .readyCleared else s.att.get q := by
  induction ps generalizing s with
  | nil => simp
  | cons p ps ih =>
    obtain ⟨fresh, rest⟩ := List.nodup_cons.mp distinct
    have ports : (clearReadyMark s p).portState q = if q = p then .offline else s.portState q :=
      s.portState_setPort p q .offline
    have atts : (clearReadyMark s p).att.get q = if q = p then (s.att.get q).raise .readyCleared else s.att.get q :=
      PerPort.get_modify s.att p q _
    obtain ⟨ports', atts'⟩ := ih (clearReadyMark s p) rest
    rw [List.foldl_cons, ports', atts', ports, atts]
    by_cases own : q = p
    · subst own
      simp [fresh]
    · simp [own]

theorem State.readyPorts_nodup (s : State) : s.readyPorts.Nodup := Port.nodup_all.filter _

/-- R154: every READY port, and no other, becomes OFFLINE. -/
theorem State.clearReady_portState (s : State) (q : Port) :
    s.clearReady.portState q = if s.portState q = .ready then .offline else s.portState q := by
  rw [State.clearReady, (foldl_clearReadyMark _ s s.readyPorts_nodup q).1]
  simp [State.readyPorts]

/-- R154: every port that held a mark, and no other, is told. -/
theorem State.clearReady_raises (s : State) : RaisedTo s s.clearReady .readyCleared s.readyPorts :=
  fun q => (foldl_clearReadyMark _ s s.readyPorts_nodup q).2

/-! ## Setup values -/

/-- The stored values of Table 10-3 and of the shadow header are the same in both states. -/
def SameSetup (s t : State) : Prop :=
  t.mbc.params = s.mbc.params ∧ t.mbc.deadline = s.mbc.deadline ∧ t.cal.shadow.header = s.cal.shadow.header

/-- R154, from `s` to `t`: a change of a stored value makes every READY port OFFLINE and raises READY_CLEARED to exactly
those; without one no port state and no attention state changes. -/
def ClearsOnChange (s t : State) : Prop :=
  (SameSetup s t → t.mbc.ports = s.mbc.ports ∧ t.att = s.att) ∧
    (¬ SameSetup s t → (∀ q, t.portState q = if s.portState q = .ready then .offline else s.portState q) ∧
      RaisedTo s t .readyCleared (Port.all.filter fun q => s.portState q == .ready))

theorem foldl_clearReadyMark_sameSetup (ps : List Port) (s : State) : SameSetup s (ps.foldl clearReadyMark s) := by
  induction ps generalizing s with
  | nil => exact ⟨rfl, rfl, rfl⟩
  | cons p ps ih => exact ih (clearReadyMark s p)

theorem State.clearReady_sameSetup (s : State) : SameSetup s s.clearReady := foldl_clearReadyMark_sameSetup _ s

section

variable {s u : State}

theorem SameSetup.refl (s : State) : SameSetup s s := ⟨rfl, rfl, rfl⟩

theorem SameSetup.of_clearReady (h : SameSetup s u.clearReady) : SameSetup s u := by
  obtain ⟨params, deadline, header⟩ := h
  obtain ⟨params', deadline', header'⟩ := u.clearReady_sameSetup
  exact ⟨params'.symm.trans params, deadline'.symm.trans deadline, header'.symm.trans header⟩

/-- A step that changes no stored value, no port state and no attention state clears nothing. -/
theorem ClearsOnChange.of_same (same : SameSetup s u) (ports : u.mbc.ports = s.mbc.ports) (att : u.att = s.att) :
    ClearsOnChange s u := ⟨fun _ => ⟨ports, att⟩, fun changed => absurd same changed⟩

theorem ClearsOnChange.refl (s : State) : ClearsOnChange s s := .of_same (.refl s) rfl rfl

/-- A write that changes a stored value and is followed by the clearing of the marks. -/
theorem ClearsOnChange.of_changed (changed : ¬ SameSetup s u) (ports : u.mbc.ports = s.mbc.ports) (att : u.att = s.att) :
    ClearsOnChange s u.clearReady := by
  have states (q : Port) : u.portState q = s.portState q := by rw [State.portState, ports]; rfl
  have ready : u.readyPorts = Port.all.filter fun q => s.portState q == .ready := by
    simp only [State.readyPorts, states]
  refine ⟨fun same => absurd same.of_clearReady changed, fun _ => ⟨fun q => ?_, fun q => ?_⟩⟩
  · rw [u.clearReady_portState, states]
  · rw [u.clearReady_raises q, ready, att]

/-- The checks before a write change nothing. -/
theorem ClearsOnChange.of_checked {act done : State × Answer} {checks : List (Bool × Status)}
    (h : ClearsOnChange s done.1) (acts : act = checked s checks done) : ClearsOnChange s act.1 := by
  subst acts
  unfold checked
  split
  · exact .refl s
  · exact h

end

/-! ## The three writes -/

section

variable (s : State) (p : Port)

theorem State.writeParams_clearsOnChange (w : Params) : ClearsOnChange s (s.writeParams p w).1 := by
  unfold State.writeParams
  split
  · exact .refl s
  next new =>
    refine .of_changed (fun ⟨params, _, _⟩ => new ?_) rfl rfl
    have stored : (s.mbc.params.set p w).get p = s.params p := congrArg (PerPort.get · p) params
    simpa using stored.symm

theorem State.writeDeadline_clearsOnChange (n : Nat) : ClearsOnChange s (s.writeDeadline n).1 := by
  unfold State.writeDeadline
  split
  · exact .refl s
  next new => exact .of_changed (fun ⟨_, deadline, _⟩ => new deadline.symm) rfl rfl

theorem State.frameInSetup_clearsOnChange (h : Header) : ClearsOnChange s (s.frameInSetup h) := by
  have written : (s.setShadowHeader h).cal.shadow.header = h := by simp [Bank.setHeader]
  unfold State.frameInSetup
  split
  next same => exact .of_same ⟨rfl, rfl, written.trans same.symm⟩ rfl rfl
  next new => exact .of_changed (fun ⟨_, _, header⟩ => new (header.symm.trans written)) rfl rfl

end

/-! ## Setup writes as checks and a write -/

section

variable {s : State} {checks : List (Bool × Status)} {act : State × Answer}

theorem checked_badLength {pass : Bool} (h : pass = false) :
    checked s ((pass, .badLength) :: checks) act = refuse s .badLength := by
  rw [h]
  rfl

/-- A test that refuses, put before checks made in order, is the first of the checks. -/
theorem refuse_else_eq_checked {fails : Prop} [Decidable fails] {pass : Bool} {st : Status} {body : State × Answer}
    (passes : pass = true ↔ ¬ fails) (rest : body = checked s checks act) :
    (if fails then refuse s st else body) = checked s ((pass, st) :: checks) act := by
  rw [checked_cons, rest]
  by_cases h : fails
  · rw [if_pos h, if_neg (by simp [passes, h])]
  · rw [if_neg h, if_pos (passes.2 h)]

end

section

variable (s : State) (p : Port)

/-- R152, R153: SET_QUOTA is its checks in order and then the write of reserve and ceiling. -/
theorem setQuota_eq (b : List Byte) : setQuota s p b =
    checked s [(decide (b.length = 4), .badLength), (!s.inRun, .wrongState),
      (decide (halfAt b 0 ≤ 512 ∧ 1 ≤ halfAt b 2 ∧ halfAt b 2 ≤ 512), .badArgument),
      (decide (halfAt b 0 ≤ halfAt b 2), .badArgument), (decide (s.reserveSumWith p (halfAt b 0) ≤ 512), .limit)]
      (s.writeParams p { s.params p with reserve := halfAt b 0, ceiling := halfAt b 2 }) := by
  match b with
  | [] | [_] | [_, _] | [_, _, _] | _ :: _ :: _ :: _ :: _ :: _ => exact (checked_badLength (by simp)).symm
  | [r0, r1, c0, c1] =>
    have reserve : halfAt [r0, r1, c0, c1] 0 = u16 r0 r1 := rfl
    have ceiling : halfAt [r0, r1, c0, c1] 2 = u16 c0 c1 := rfl
    rw [reserve, ceiling]
    exact refuse_else_eq_checked (by simp) <| refuse_else_eq_checked (by simp; omega) <|
      refuse_else_eq_checked (by simp) <| refuse_else_eq_checked (by simp) rfl

/-- R152: SET_RXQ is its checks in order and then the write of depth and watermark. -/
theorem setRxq_eq (b : List Byte) : setRxq s p b =
    checked s [(decide (b.length = 2), .badLength), (!s.inRun, .wrongState),
      (decide (4 ≤ byteAt b 0 ∧ byteAt b 0 ≤ 32 ∧ 1 ≤ byteAt b 1 ∧ byteAt b 1 ≤ byteAt b 0), .badArgument)]
      (s.writeParams p { s.params p with depth := byteAt b 0, watermark := byteAt b 1 }) := by
  match b with
  | [] | [_] | _ :: _ :: _ :: _ => exact (checked_badLength (by simp)).symm
  | [d, w] =>
    have depth : byteAt [d, w] 0 = d.toNat := rfl
    have watermark : byteAt [d, w] 1 = w.toNat := rfl
    rw [depth, watermark]
    exact refuse_else_eq_checked (by simp) <| refuse_else_eq_checked (by simp; omega) rfl

/-- R152: SET_LEASE is its checks in order and then the write of lease time and redelivery limit. -/
theorem setLease_eq (b : List Byte) : setLease s p b =
    checked s [(decide (b.length = 3), .badLength), (!s.inRun, .wrongState),
      (decide (1 ≤ halfAt b 0 ∧ halfAt b 0 ≤ 1000 ∧ byteAt b 2 ≤ 7), .badArgument)]
      (s.writeParams p { s.params p with leaseTime := halfAt b 0, redelivery := byteAt b 2 }) := by
  match b with
  | [] | [_] | [_, _] | _ :: _ :: _ :: _ :: _ => exact (checked_badLength (by simp)).symm
  | [t0, t1, limit] =>
    have time : halfAt [t0, t1, limit] 0 = u16 t0 t1 := rfl
    have redelivery : byteAt [t0, t1, limit] 2 = limit.toNat := rfl
    rw [time, redelivery]
    exact refuse_else_eq_checked (by simp) <| refuse_else_eq_checked (by simp; omega) rfl

/-- R152: SET_DEADLINE is its checks in order and then the write of the proposal deadline. -/
theorem setDeadline_eq (b : List Byte) : setDeadline s b =
    checked s [(decide (b.length = 1), .badLength), (!s.inRun, .wrongState),
      (decide (1 ≤ byteAt b 0 ∧ byteAt b 0 ≤ 15), .badArgument)] (s.writeDeadline (byteAt b 0)) := by
  match b with
  | [] | _ :: _ :: _ => exact (checked_badLength (by simp)).symm
  | [n] =>
    have deadline : byteAt [n] 0 = n.toNat := rfl
    rw [deadline]
    exact refuse_else_eq_checked (by simp) <| refuse_else_eq_checked (by simp; omega) rfl

/-- R53: SET_FRAME in SETUP is its length, the bounds of Table 3-1 and the write of the shadow header. -/
theorem setFrame_eq_of_setup (setup : s.inRun = false) (b : List Byte) : setFrame s p b =
    checked s [(decide (b.length = 4), .badLength),
      (decide (4 ≤ halfAt b 0 ∧ halfAt b 0 ≤ 256 ∧ 50 ≤ halfAt b 2 ∧ halfAt b 2 ≤ 65535), .badArgument)]
      (reply (s.frameInSetup ⟨halfAt b 0, halfAt b 2⟩) .ok []) := by
  match b with
  | [] | [_] | [_, _] | [_, _, _] | _ :: _ :: _ :: _ :: _ :: _ => exact (checked_badLength (by simp)).symm
  | [n0, n1, t0, t1] =>
    have slots : halfAt [n0, n1, t0, t1] 0 = u16 n0 n1 := rfl
    have length : halfAt [n0, n1, t0, t1] 2 = u16 t0 t1 := rfl
    rw [slots, length, setFrame, setup, if_neg Bool.false_ne_true, headerOf]
    by_cases range : 4 ≤ u16 n0 n1 ∧ u16 n0 n1 ≤ 256 ∧ 50 ≤ u16 t0 t1 ∧ u16 t0 t1 ≤ 65535
    · rw [if_pos range, decide_eq_true range]
      rfl
    · rw [if_neg range, decide_eq_false range]
      rfl

/-- R154: what each of the five commands does at its block in SETUP clears the marks exactly on a change. -/
theorem exec_setupWrite (setup : s.inRun = false) (b : List Byte) {i : Instr}
    (hi : i ∈ [Instr.setQuota p b, .setRxq p b, .setLease p b, .setDeadline p b, .setFrame p b]) :
    ∃ act : State → State × Answer, exec i s = command i p s act ∧ ClearsOnChange s (act s).1 := by
  simp only [List.mem_cons, List.not_mem_nil, or_false] at hi
  rcases hi with rfl | rfl | rfl | rfl | rfl
  · exact ⟨fun s => setQuota s p b, rfl, .of_checked (s.writeParams_clearsOnChange p _) (setQuota_eq s p b)⟩
  · exact ⟨fun s => setRxq s p b, rfl, .of_checked (s.writeParams_clearsOnChange p _) (setRxq_eq s p b)⟩
  · exact ⟨fun s => setLease s p b, rfl, .of_checked (s.writeParams_clearsOnChange p _) (setLease_eq s p b)⟩
  · exact ⟨fun s => setDeadline s b, rfl, .of_checked (s.writeDeadline_clearsOnChange _) (setDeadline_eq s b)⟩
  · exact ⟨fun s => setFrame s p b, rfl,
      .of_checked (done := reply _ .ok []) (s.frameInSetup_clearsOnChange _) (setFrame_eq_of_setup s p setup b)⟩

end

/-- Settles O16: each of the five commands is its checks and then a write that clears the marks when it changes a
value; the answer at the link adds nothing to that. -/
theorem setupChangeClearsReadyMarks : Obligations.SetupChangeClearsReadyMarks := by
  unfold Obligations.SetupChangeClearsReadyMarks
  intro s p b i ht setup hi
  obtain ⟨act, runs, clears⟩ := exec_setupWrite s p setup b hi
  exact ⟨(act s).1.answer p (act s).2, runs.trans (command_takes ht), clears⟩

end Sys2Proof.Machine
end

section
/-! PROOFS. What one step can do, said once for the laws that every step keeps: the parts each command and happening can
change, the block's meaning of each command, and the rule by which a law that reads some parts of the state is kept. -/

namespace Sys2Proof.Machine

open Sys2Proof

/-! ## The parts each command and happening can change -/

/-- The parts of the state that a command of Table 11-14 can change at its owning block; none for the other happenings. -/
def blockParts : Instr → List Part
  | .portReset _ _ => .link :: leaveParts
  | .readCounters _ _ => [.link, .mst, .rx, .rpt]
  | .setQuota _ _ => [.mbc, .att]
  | .setRxq _ _ => [.mbc, .att]
  | .setLease _ _ => [.mbc, .att]
  | .setDeadline _ _ => [.mbc, .att]
  | .setFrame _ _ => [.cal, .mbc, .att]
  | .ready _ _ => runParts
  | .unready _ _ => [.mbc]
  | .join _ _ => [.mbc, .att]
  | .leave _ _ => leaveParts
  | .openLane _ _ => [.lanes]
  | .closeLane _ _ => [.lanes]
  | .purgeLane _ _ => [.lanes, .mst, .rpt, .att]
  | .send _ _ => [.mst, .lanes]
  | .fetch _ _ => [.rx, .mst]
  | .ack _ _ => [.rx, .mst, .rpt, .att]
  | .returnLease _ _ => [.rx, .mst, .rpt, .att]
  | .getReport _ _ => [.rpt]
  | .claim _ _ => [.cal]
  | .writeEntry _ _ => [.cal]
  | .clearEntry _ _ => [.cal]
  | .disown _ _ => [.cal]
  | .propose _ _ => [.plan, .att]
  | .vote _ _ => [.plan, .att]
  | .withdraw _ _ => [.plan, .att]
  | .getEvents _ _ => [.att]
  | .clearEvents _ _ => [.att]
  | .setEventMask _ _ => [.att]
  | _ => []

/-- The parts of the state that a command or happening can change. A command changes what its block does, and the link
that gets the answer. -/
def partsOf : Instr → List Part
  | .resetNAssert => [.resetLow, .timer, .att]
  | .resetNRelease _ => [.resetLow, .mbc, .mst, .lanes, .cal, .plan, .timer, .rx, .rpt, .att, .link]
  | .refclkStop => [.refclk]
  | .refclkResume => [.refclk]
  | .csNFall _ => [.link]
  | .csNRise _ _ => [.link, .att]
  | .lengthAbove272 _ _ _ _ => [.link]
  | .requestReceived _ _ _ _ _ => [.link, .att]
  | .executionEnd _ => [.link]
  | .responseSent _ => [.link]
  | .slotStart => slotParts
  | .leaseExpiry _ _ => [.timer, .rx, .mst, .rpt, .att]
  | .syncOutPulseEnd => [.timer]
  | i => .link :: blockParts i

section

variable {s t : State} {x : List Part}

theorem ChangesOnly.ite {c : Prop} [Decidable c] {u : State} (ht : ChangesOnly s t x) (hu : ChangesOnly s u x) :
    ChangesOnly s (if c then t else u) x := by
  split
  · exact ht
  · exact hu

end

/-! ### The commands of Table 11-14 -/

/-- What a command does at its owning block; nothing for the other happenings. -/
def actOf : Instr → State → State × Answer
  | .status p b, s => status s p b
  | .repeatLast p b, s => repeatLast s p b
  | .portReset p b, s => portReset s p b
  | .readCounters p b, s => readCounters s p b
  | .setQuota p b, s => setQuota s p b
  | .setRxq p b, s => setRxq s p b
  | .setLease p b, s => setLease s p b
  | .setDeadline _ b, s => setDeadline s b
  | .setFrame p b, s => setFrame s p b
  | .ready p b, s => ready s p b
  | .unready p b, s => unready s p b
  | .join p b, s => join s p b
  | .leave p b, s => leave s p b
  | .openLane p b, s => openLane s p b
  | .closeLane p b, s => closeLane s p b
  | .purgeLane p b, s => purgeLane s p b
  | .laneInfo p b, s => laneInfo s p b
  | .send p b, s => send s p b
  | .fetch p b, s => fetch s p b
  | .reread p b, s => reread s p b
  | .ack p b, s => ack s p b
  | .returnLease p b, s => returnLease s p b
  | .getReport p b, s => getReport s p b
  | .readEntry _ b, s => readEntry s b
  | .claim p b, s => claim s p b
  | .writeEntry p b, s => writeEntry s p b
  | .clearEntry p b, s => clearEntry s p b
  | .disown p b, s => disown s p b
  | .readHeader _ b, s => readHeader s b
  | .propose p b, s => propose s p b
  | .vote p b, s => vote s p b
  | .withdraw p b, s => withdraw s p b
  | .planStatus _ b, s => planStatus s b
  | .getEvents p b, s => getEvents s p b
  | .clearEvents p b, s => clearEvents s p b
  | .setEventMask p b, s => setEventMask s p b
  | _, s => refuse s .ok

/-- Every command of Table 11-14 is taken whole at its block. -/
theorem exec_eq_command {i : Instr} {p : Port} {code : Byte} {b : List Byte} (h : i.command? = some (p, code, b))
    (s : State) : exec i s = command i p s (actOf i) := by
  cases i <;> simp only [Instr.command?, Option.some.injEq, Prod.mk.injEq, reduceCtorEq] at h <;>
    (obtain ⟨rfl, rfl, rfl⟩ := h; rfl)

/-- No block changes a part but those of `blockParts`. -/
theorem actOf_changes (i : Instr) (s : State) : ChangesOnly s (actOf i s).1 (blockParts i) := by
  cases i with
  | status p b => exact status_changes s p b _
  | repeatLast p b => exact repeatLast_changes s p b _
  | portReset p b => exact portReset_changes s p b
  | readCounters p b => exact (readCounters_changes s p b).mono (by simp [blockParts])
  | setQuota p b => exact setQuota_changes s p b
  | setRxq p b => exact setRxq_changes s p b
  | setLease p b => exact setLease_changes s p b
  | setDeadline p b => exact setDeadline_changes s b
  | setFrame p b => exact setFrame_changes s p b
  | ready p b => exact ready_changes s p b
  | unready p b => exact unready_changes s p b
  | join p b => exact join_changes s p b
  | leave p b => exact leave_act_changes s p b
  | openLane p b => exact openLane_changes s p b
  | closeLane p b => exact closeLane_changes s p b
  | purgeLane p b => exact purgeLane_changes s p b
  | laneInfo p b => exact laneInfo_changes s p b _
  | send p b => exact send_changes s p b
  | fetch p b => exact fetch_changes s p b
  | reread p b => exact reread_changes s p b _
  | ack p b => exact ack_changes s p b
  | returnLease p b => exact returnLease_changes s p b
  | getReport p b => exact getReport_changes s p b
  | readEntry p b => exact readEntry_changes s b _
  | claim p b => exact claim_changes s p b
  | writeEntry p b => exact writeEntry_changes s p b
  | clearEntry p b => exact clearEntry_changes s p b
  | disown p b => exact disown_changes s p b
  | readHeader p b => exact readHeader_changes s b _
  | propose p b => exact propose_changes s p b
  | vote p b => exact vote_changes s p b
  | withdraw p b => exact withdraw_changes s p b
  | planStatus p b => exact planStatus_changes s b _
  | getEvents p b => exact getEvents_changes s p b
  | clearEvents p b => exact clearEvents_changes s p b
  | setEventMask p b => exact setEventMask_changes s p b
  | _ => exact .refl s _

theorem partsOf_command {i : Instr} {p : Port} {code : Byte} {b : List Byte} (h : i.command? = some (p, code, b)) :
    partsOf i = .link :: blockParts i := by
  cases i <;> first | rfl | simp [Instr.command?] at h

/-! ### The link happenings -/

section

variable (s : State) (p : Port)

theorem State.abort_changes : ChangesOnly s (s.abort p) [.link, .att] :=
  ((s.modLink_changes p _).mono (by simp)).comp ((State.raise_changes _ _ p).mono (by simp))

theorem State.crcFailed_changes (tag : Byte) : ChangesOnly s (s.crcFailed p tag) [.link, .att] := by
  refine ChangesOnly.comp ?_ ((State.modLink_changes _ p _).mono (by simp))
  exact ((s.modLink_changes p _).mono (by simp)).comp ((State.raise_changes _ _ p).mono (by simp))

theorem execCsNFall_changes : ∃ t, execCsNFall p s = .next t ∧ ChangesOnly s t [.link] := by
  have fall := s.modLink_changes p fun l => { l with csLow := true }
  exact ⟨_, rfl, .ite (.refl s _) (.ite (fall.comp (State.modLink_changes _ p _)) fall)⟩

theorem execCsNRise_changes (bytes : Nat) : ∃ t, execCsNRise p bytes s = .next t ∧ ChangesOnly s t [.link, .att] := by
  have rise := (s.modLink_changes p fun l => { l with csLow := false }).mono (z := [.link, .att]) (by simp)
  refine ⟨_, rfl, .ite (.refl s _) (.ite (.comp (.ite ?_ rise) ((State.modLink_changes _ p _).mono (by simp))) rise)⟩
  exact rise.comp (State.abort_changes _ p)

theorem execRequestReceived_changes (code tag : Byte) (payload : List Byte) (crc : Half) :
    ∃ t, execRequestReceived p code tag payload crc s = .next t ∧ ChangesOnly s t [.link, .att] :=
  ⟨_, rfl, .ite (.refl s _) (.ite ((s.modLink_changes p _).mono (by simp))
    (.ite (s.crcFailed_changes p tag) ((s.modLink_changes p _).mono (by simp))))⟩

theorem execExecutionEnd_changes : ∃ t, execExecutionEnd p s = .next t ∧ ChangesOnly s t [.link] := by
  refine ⟨_, rfl, ?_⟩
  split
  · exact .ite (s.modLink_changes p _) (.refl s _)
  · exact .refl s _

end

/-! ### The time-driven happenings -/

section

variable (s : State)

theorem State.expire_changes (p : Port) (n : SlotId) (l : Lease) :
    ChangesOnly s (s.expire p n l) [.timer, .rx, .mst, .rpt, .att] := by
  unfold State.expire
  refine ChangesOnly.comp ?_ ((State.endWithoutAck_changes _ p n _ _ _).mono (by simp))
  refine ChangesOnly.comp ?_ ((State.raise_changes _ _ p).mono (by simp))
  exact ((timer_changes s _).mono (by simp)).comp ((State.modRx_changes _ p _).mono (by simp))

theorem execSlotStart_changes : ∃ t, execSlotStart s = .next t ∧ ChangesOnly s t slotParts := by
  refine ⟨_, rfl, .ite (.refl s _) ?_⟩
  split
  · exact .refl s _
  · exact s.slotStartAt_changes _

theorem execLeaseExpiry_changes (p : Port) (n : SlotId) :
    ∃ t, execLeaseExpiry p n s = .next t ∧ ChangesOnly s t [.timer, .rx, .mst, .rpt, .att] := by
  refine ⟨_, rfl, .ite (.refl s _) ?_⟩
  split
  · exact .refl s _
  · exact s.expire_changes p n _

theorem execSyncOutPulseEnd_changes : ∃ t, execSyncOutPulseEnd s = .next t ∧ ChangesOnly s t [.timer] := by
  refine ⟨_, rfl, .ite (.refl s _) ?_⟩
  split
  · exact .refl s _
  · exact timer_changes s _

end

/-- A command changes what its block changes, and its port's link. -/
theorem exec_command_parts {i : Instr} {p : Port} {code : Byte} {b : List Byte}
    (h : i.command? = some (p, code, b)) (s : State) : ∃ t, exec i s = .next t ∧ ChangesOnly s t (partsOf i) := by
  have answered := (actOf_changes i s).trans (State.answer_changes _ p (actOf i s).2) (z := .link :: blockParts i)
    (fun _ => List.mem_cons_of_mem _) (by simp)
  exact ⟨_, exec_eq_command h s, partsOf_command h ▸ .ite answered (.refl s _)⟩

/-- Every command and happening has a next state, and changes no part but those of `partsOf`. -/
theorem exec_changes (i : Instr) (s : State) : ∃ t, exec i s = .next t ∧ ChangesOnly s t (partsOf i) := by
  cases i with
  | resetNAssert => exact ⟨_, rfl, fun x hx => by cases x <;> first | rfl | simp [partsOf] at hx⟩
  | resetNRelease straps => exact ⟨_, rfl, fun x hx => by cases x <;> first | rfl | simp [partsOf] at hx⟩
  | refclkStop => exact ⟨_, rfl, fun x hx => by cases x <;> first | rfl | simp [partsOf] at hx⟩
  | refclkResume => exact ⟨_, rfl, fun x hx => by cases x <;> first | rfl | simp [partsOf] at hx⟩
  | csNFall p => exact execCsNFall_changes s p
  | csNRise p bytes => exact execCsNRise_changes s p bytes
  | lengthAbove272 p code tag n => exact ⟨_, rfl, .ite (s.modLink_changes p _) (.refl s _)⟩
  | requestReceived p code tag payload crc => exact execRequestReceived_changes s p code tag payload crc
  | executionEnd p => exact execExecutionEnd_changes s p
  | responseSent p => exact ⟨_, rfl, .ite (s.modLink_changes p _) (.refl s _)⟩
  | slotStart => exact execSlotStart_changes s
  | leaseExpiry p n => exact execLeaseExpiry_changes s p n
  | syncOutPulseEnd => exact execSyncOutPulseEnd_changes s
  | _ => exact exec_command_parts rfl s

/-- What a next state can differ in from the state before. -/
theorem changes_of_exec {i : Instr} {s t : State} (h : exec i s = .next t) : ChangesOnly s t (partsOf i) := by
  obtain ⟨u, runs, changes⟩ := exec_changes i s
  rw [runs] at h
  cases h
  exact changes

/-- The queue and the free choices are among the parts of no command. -/
theorem queue_notMem_partsOf (i : Instr) : Part.pending ∉ partsOf i ∧ Part.choices ∉ partsOf i := by
  cases i <;> exact ⟨of_decide_eq_false rfl, of_decide_eq_false rfl⟩

/-- Settles O3: no command or happening has the queue or the free choices among the parts it can change. -/
theorem everyCommandCompletesAndKeepsQueue : Obligations.EveryCommandCompletesAndKeepsQueue := by
  unfold Obligations.EveryCommandCompletesAndKeepsQueue
  intro i s
  obtain ⟨t, runs, changes⟩ := exec_changes i s
  obtain ⟨queue, choices⟩ := queue_notMem_partsOf i
  exact ⟨t, runs, changes.pending queue, changes.choices choices⟩

/-- Settles O1: the definition of a step. -/
theorem stepTakesFrontCommand : Obligations.StepTakesFrontCommand := by
  unfold Obligations.StepTakesFrontCommand
  intro c rest s queued
  rw [step, queued]

/-! ## Laws that read some parts of the state -/

/-- A law reads no part of the state but those named. -/
def ReadsOnly (law : State → Prop) (parts : List Part) : Prop :=
  ∀ s t : State, (∀ x ∈ parts, x.same s t) → law s → law t

section

variable {law : State → Prop} {parts changed : List Part} {s t : State}

/-- A law is kept where none of the parts it reads changes. -/
theorem ReadsOnly.keeps (reads : ReadsOnly law parts) (changes : ChangesOnly s t changed)
    (apart : ∀ x ∈ parts, x ∉ changed) (h : law s) : law t :=
  reads s t (fun x hx => changes x (apart x hx)) h

theorem ReadsOnly.answer (reads : ReadsOnly law parts) (apart : Part.link ∉ parts) (p : Port) (a : Answer) (h : law s) :
    law (s.answer p a) :=
  reads.keeps (s.answer_changes p a) (fun _ hx same => apart (List.mem_singleton.1 same ▸ hx)) h

/-- A command keeps a law that its block keeps and that does not read the links. -/
theorem ReadsOnly.command (reads : ReadsOnly law parts) (apart : Part.link ∉ parts) {i : Instr} {p : Port}
    {act : State → State × Answer} (runs : Machine.command i p s act = .next t) (h : law s)
    (acts : s.takes i = true → law (act s).1) : law t := by
  cases taken : s.takes i with
  | false =>
    rw [command_not_taken taken] at runs
    cases runs
    exact h
  | true =>
    rw [command_takes taken] at runs
    cases runs
    exact reads.answer apart p _ (acts taken)

/-- A command or happening can change a part that the law reads. -/
def touches (i : Instr) (parts : List Part) : Bool := (partsOf i).any parts.contains

/-- A command or happening that changes none of the parts a law reads keeps the law. -/
theorem ReadsOnly.exec_untouched (reads : ReadsOnly law parts) {i : Instr} (apart : touches i parts = false)
    (runs : exec i s = .next t) (h : law s) : law t := by
  refine reads.keeps (changes_of_exec runs) (fun x hx changed => ?_) h
  have : touches i parts = true := List.any_eq_true.2 ⟨x, changed, List.contains_iff_mem.2 hx⟩
  simp [apart] at this

theorem State.idleMoves_happen_or_tick (s : State) (m : IdleMove) :
    (∃ q, s.idleMove m = { s with pending := q }) ∨
      s.idleMove m = { s with timer := { s.timer with timeBase := s.timer.timeBase + 1 } } := by
  cases m with
  | happen i => exact Or.inl ⟨[i], rfl⟩
  | tick => exact Or.inr rfl

/-- An idle step changes at most the queue, the free choices and the time base. -/
theorem State.idle_eq (s : State) : ∃ q n now,
    s.idle = { s with pending := q, choices := n, timer := { s.timer with timeBase := now } } := by
  unfold State.idle
  split
  · exact ⟨s.pending, s.choices, s.timer.timeBase, rfl⟩
  next m _ =>
    rcases s.idleMoves_happen_or_tick m with ⟨q, h⟩ | h
    · exact ⟨q, s.choices, s.timer.timeBase, h⟩
    · exact ⟨s.pending, s.choices, _, h⟩
  next m ms _ _ =>
    rcases State.idleMoves_happen_or_tick { s with choices := s.choices + 1 }
      ((m :: ms).getD (Config.choice s.choices % (m :: ms).length) m) with ⟨q, h⟩ | h
    · exact ⟨q, s.choices + 1, s.timer.timeBase, h⟩
    · exact ⟨s.pending, s.choices + 1, _, h⟩

/-- The rule for the laws that every step keeps: the law reads neither the queue nor the free choices nor the time base,
and every command and happening that touches a part it reads keeps it. -/
theorem ReadsOnly.step (reads : ReadsOnly law parts) (queue : Part.pending ∉ parts) (choices : Part.choices ∉ parts)
    (time : ∀ s now, law s → law { s with timer := { s.timer with timeBase := now } })
    (execs : ∀ i s t, touches i parts = true → law s → exec i s = .next t → law t) :
    law s → Machine.step s = .next t → law t := by
  intro h runs
  have requeued : ∀ (s : State) q n, law s → law { s with pending := q, choices := n } := by
    intro s q n hs
    refine reads s _ (fun x hx => ?_) hs
    cases x <;> first | rfl | exact absurd hx ‹_›
  unfold Machine.step at runs
  split at runs
  next i rest _ =>
    have hs : law (s.withPending rest) := requeued s rest s.choices h
    cases touched : touches i parts with
    | false => exact reads.exec_untouched touched runs hs
    | true => exact execs i _ _ touched hs runs
  next =>
    cases runs
    obtain ⟨q, n, now, idle⟩ := s.idle_eq
    rw [idle]
    exact requeued _ q n (time s now h)

end

/-! ## Checks made in order -/

theorem firstFailing_eq_none {checks : List (Bool × Status)} :
    firstFailing checks = none ↔ ∀ c ∈ checks, c.1 = true := by
  induction checks with
  | nil => simp [firstFailing]
  | cons c rest ih =>
    obtain ⟨pass, st⟩ := c
    cases pass <;> simp [firstFailing, ih]

theorem passes_of_none {checks : List (Bool × Status)} (passing : firstFailing checks = none) {c : Bool} {st : Status}
    (h : (c, st) ∈ checks) : c = true := firstFailing_eq_none.1 passing (c, st) h

/-- What holds before checks made in order holds after them, if the act they guard leaves it so. -/
theorem checked_keeps {law : State → Prop} {s : State} {checks : List (Bool × Status)} {act : State × Answer}
    (h : law s) (acts : (∀ c ∈ checks, c.1 = true) → law act.1) : law (checked s checks act).1 := by
  unfold checked
  split
  · exact h
  next passing => exact acts (firstFailing_eq_none.1 passing)

end Sys2Proof.Machine
end

section
/-! PROOFS. The Calendar Store read and written (03_calendar_banks.md, R44, R45, R50, R53): READ_ENTRY, READ_HEADER,
WRITE_ENTRY and SET_FRAME are their checks in order and then one answer or one write to the shadow bank. -/

namespace Sys2Proof.Machine

open Sys2Proof

/-! ## Reading the banks -/

section

variable (s : State) (p : Port)

/-- The bank that the selector byte of a READ_ENTRY names. -/
def State.bankNamed (b : List Byte) : BankId := if byteAt b 0 = 0 then s.cal.active else s.cal.active.other

theorem Byte.eq_zero_iff (x : Byte) : x = 0 ↔ x.toNat = 0 := BitVec.toNat_inj.symm

theorem Byte.eq_one_iff (x : Byte) : x = 1 ↔ x.toNat = 1 := BitVec.toNat_inj.symm

/-- R44: READ_ENTRY is its two checks and then the bytes of one entry. -/
theorem readEntry_eq (b : List Byte) : readEntry s b =
    checked s [(decide (b.length = 2), .badLength), (decide (byteAt b 0 ≤ 1), .badArgument)]
      (reply s .ok (entryBytes (s.bankNamed b) ((s.cal.bank (s.bankNamed b)).entries.at (entryOf (b.getD 1 0))))) := by
  match b with
  | [] | [_] | _ :: _ :: _ :: _ => exact (checked_badLength (by simp)).symm
  | [sel, index] =>
    have byte : byteAt [sel, index] 0 = sel.toNat := rfl
    simp only [readEntry, selectorOf, State.bankNamed, byte, Byte.eq_zero_iff, Byte.eq_one_iff]
    by_cases active : sel.toNat = 0
    · rw [if_pos active, if_pos active, active]
      rfl
    · rw [if_neg active, if_neg active]
      by_cases shadow : sel.toNat = 1
      · rw [if_pos shadow, shadow]
        rfl
      · rw [if_neg shadow, decide_eq_false (p := sel.toNat ≤ 1) (by omega)]
        rfl

theorem BankId.code_toNat (i : BankId) : i.code.toNat = if i = .a then 0 else 1 := by cases i <;> rfl

theorem ownerByte_toNat (o : Option Port) : (ownerByte o).toNat = match o with | none => 4 | some q => q.toNat := by
  cases o with
  | none => rfl
  | some q => exact portByte_toNat q

theorem entryBytes_length (i : BankId) (e : Entry) : (entryBytes i e).length = 5 := by
  unfold entryBytes
  split <;> rfl

theorem entryBytes_bank (i : BankId) (e : Entry) : byteAt (entryBytes i e) 0 = if i = .a then 0 else 1 := by
  rw [← BankId.code_toNat]
  unfold entryBytes
  split <;> rfl

/-- Table 11-22: what the bytes of an entry say of its owner and of its release. -/
theorem entryBytes_fields (i : BankId) (e : Entry) :
    byteAt (entryBytes i e) 2 = (match e.owner with | none => 4 | some q => q.toNat) ∧
    (e.release = none → byteAt (entryBytes i e) 1 = 0 ∧ byteAt (entryBytes i e) 3 = 0 ∧ byteAt (entryBytes i e) 4 = 0) ∧
    ∀ r, e.release = some r → byteAt (entryBytes i e) 1 = 1 ∧ byteAt (entryBytes i e) 3 = r.lane.val ∧
      byteAt (entryBytes i e) 4 = r.burst % 256 := by
  obtain ⟨release, owner⟩ := e
  cases release with
  | none => exact ⟨ownerByte_toNat owner, fun _ => ⟨rfl, rfl, rfl⟩, fun _ held => (by cases held)⟩
  | some r =>
    refine ⟨ownerByte_toNat owner, fun absent => (by cases absent), fun r' h => ?_⟩
    cases h
    exact ⟨rfl, (byteOf_toNat _).trans (Nat.mod_eq_of_lt (r.lane.isLt.trans (by decide))), byteOf_toNat _⟩

/-- R45: READ_HEADER is its length check and then both headers. -/
theorem readHeader_eq (b : List Byte) : readHeader s b = checked s [(decide (b = []), .badLength)]
    (reply s .ok (s.cal.active.code :: s.cal.activeBank.header.bytes ++ s.cal.shadow.header.bytes)) := by
  cases b <;> rfl

theorem exec_readEntry (b : List Byte) :
    exec (.readEntry p b) s = command (.readEntry p b) p s fun s => readEntry s b := rfl

theorem exec_readHeader (b : List Byte) :
    exec (.readHeader p b) s = command (.readHeader p b) p s fun s => readHeader s b := rfl

end

/-- Settles O39: READ_ENTRY and READ_HEADER are their checks and then an answer, read off field by field. -/
theorem banksAreRead : Obligations.BanksAreRead := by
  unfold Obligations.BanksAreRead
  refine fun s p b => ⟨fun ht => ?_, fun ht => ⟨fun some => ?_, fun nil => ?_⟩⟩
  · have reads := readEntry_eq s b
    split
    next st failing => exact justAnswers_of_failing (exec_readEntry s p b) ht reads failing
    next passing =>
      refine ⟨_, _, justAnswers_of_act (exec_readEntry s p b) ht (reads.trans (checked_of_none passing _)),
        entryBytes_length _ _, rfl, entryBytes_bank _ _, fun i index => ?_⟩
      have same : entryOf (b.getD 1 0) = i := Fin.ext index.symm
      rw [same]
      exact entryBytes_fields _ _
  · exact justAnswers_of_act (exec_readHeader s p b) ht
      ((readHeader_eq s b).trans (checked_badLength (decide_eq_false some)))
  · subst nil
    refine ⟨_, justAnswers_of_act (exec_readHeader s p []) ht rfl, rfl, BankId.code_toNat _, ?_⟩
    exact ⟨halfAt_of_bytes rfl rfl, halfAt_of_bytes rfl rfl, halfAt_of_bytes rfl rfl, halfAt_of_bytes rfl rfl⟩

/-! ## Lanes named by a byte -/

section

variable (s : State)

/-- The lane that a byte of a payload names, when it is one. -/
def laneAt (b : List Byte) (i : Nat) : LaneId := Fin.ofNat 32 (byteAt b i)

theorem laneAt_val {b : List Byte} {i : Nat} (h : byteAt b i < 32) : (laneAt b i).val = byteAt b i :=
  Nat.mod_eq_of_lt h

theorem State.laneNo_byteAt {b : List Byte} {i : Nat} (h : byteAt b i < 32) :
    s.laneNo (byteAt b i) = s.lane (laneAt b i) := by
  rw [State.laneNo, dif_pos h]
  exact congrArg s.lane (Fin.ext (laneAt_val h).symm)

theorem laneOf_of_lt {x : Byte} {l : LaneId} (h : l.val = x.toNat) : laneOf x = some l := by
  have low : x.toNat < 32 := h ▸ l.isLt
  rw [laneOf, dif_pos low]
  exact congrArg some (Fin.ext h.symm)

theorem burstOf_of_range {x : Byte} (h : 1 ≤ x.toNat ∧ x.toNat ≤ 4) : burstOf x = some x.toNat := if_pos h

theorem burstOf_eq_none {x : Byte} (h : ¬ (1 ≤ x.toNat ∧ x.toNat ≤ 4)) : burstOf x = none := if_neg h

theorem laneOf_eq_none {x : Byte} (h : ¬ x.toNat < 32) : laneOf x = none := by rw [laneOf, dif_neg h]

end

/-! ## WRITE_ENTRY -/

section

variable (s : State) (p : Port)

/-- The checks of WRITE_ENTRY. -/
def writeEntryChecks (b : List Byte) : List (Bool × Status) :=
  [(decide (b.length = 3), .badLength), (s.inRun, .wrongState), (s.online p, .notMember),
    (decide (byteAt b 1 < 32 ∧ 1 ≤ byteAt b 2 ∧ byteAt b 2 ≤ 4), .badArgument), (s.plan.proposal.isNone, .frozen),
    ((s.shadowNo (byteAt b 0)).owner == some p, .notOwner), ((s.laneNo (byteAt b 1)).state != .closed, .laneState),
    ((s.laneNo (byteAt b 1)).owner == some p, .notOwner), ((s.laneNo (byteAt b 1)).state == .opened, .laneState)]

/-- R50: WRITE_ENTRY is its checks in order and then the write of a RELEASE entry of the port. -/
theorem writeEntry_eq (b : List Byte) : writeEntry s p b = checked s (writeEntryChecks s p b)
    (reply (s.putEntry (entryNo b) ⟨some ⟨laneAt b 1, byteAt b 2⟩, some p⟩) .ok []) := by
  match b with
  | [] | [_] | [_, _] | _ :: _ :: _ :: _ :: _ => exact (checked_badLength (by simp)).symm
  | [index, lane, burst] =>
    have length : decide ([index, lane, burst].length = 3) = true := rfl
    rw [writeEntryChecks, checked_cons, if_pos length, checked_member, writeEntry, shadowNo_byteAt, checked_cons]
    congr 1
    by_cases range : byteAt [index, lane, burst] 1 < 32 ∧
        1 ≤ byteAt [index, lane, burst] 2 ∧ byteAt [index, lane, burst] 2 ≤ 4
    · rw [if_pos (decide_eq_true range), s.laneNo_byteAt (i := 1) range.1,
        laneOf_of_lt (x := lane) (l := laneAt [index, lane, burst] 1) (laneAt_val (i := 1) range.1), burstOf_of_range (x := burst) range.2]
      exact refuse_else_eq_checked (by simp [State.frozen_eq]) <| refuse_else_eq_checked (by simp [entryNo]) <|
        refuse_else_eq_checked (by simp) <| refuse_else_eq_checked (by simp) <| refuse_else_eq_checked (by simp) rfl
    · rw [if_neg (by simpa only [decide_eq_true_eq] using range)]
      by_cases low : lane.toNat < 32
      · rw [burstOf_eq_none (x := burst) fun both => range ⟨low, both⟩]
        cases laneOf lane <;> rfl
      · rw [laneOf_eq_none low]

theorem exec_writeEntry (b : List Byte) :
    exec (.writeEntry p b) s = command (.writeEntry p b) p s fun s => writeEntry s p b := rfl

end

/-- Settles O41: WRITE_ENTRY is its checks in order and then one write to the shadow bank. -/
theorem writeEntryChecksThenWrites : Obligations.WriteEntryChecksThenWrites := by
  unfold Obligations.WriteEntryChecksThenWrites
  intro s p b ht
  have writes := writeEntry_eq s p b
  dsimp only
  split
  next st failing => exact justAnswers_of_failing (exec_writeEntry s p b) ht writes failing
  next passing =>
    have argument := passes_of_none passing (c := decide (byteAt b 1 < 32 ∧ 1 ≤ byteAt b 2 ∧ byteAt b 2 ≤ 4))
      (st := .badArgument) (by simp)
    have low : byteAt b 1 < 32 := (of_decide_eq_true argument).1
    obtain ⟨t, j, runs, answers, changes, index, rest⟩ :=
      editsEntry_of_act (exec_writeEntry s p b) ht (writes.trans (checked_of_none passing _))
    exact ⟨t, j, laneAt b 1, runs, answers, changes, index, laneAt_val low, rest⟩

/-! ## SET_FRAME -/

section

variable (s : State) (p : Port)

/-- R53: an accepted SET_FRAME writes the shadow header; in SETUP a change clears the READY marks too. -/
def State.writeFrame (h : Header) : State := if s.inRun then s.setShadowHeader h else s.frameInSetup h

/-- R53: SET_FRAME is its checks in order and then the write of the shadow header. -/
theorem setFrame_eq (b : List Byte) : setFrame s p b =
    checked s [(decide (b.length = 4), .badLength), (!s.inRun || s.online p, .notMember),
      (decide (4 ≤ halfAt b 0 ∧ halfAt b 0 ≤ 256 ∧ 50 ≤ halfAt b 2), .badArgument),
      (!s.inRun || s.plan.proposal.isNone, .frozen)]
      (reply (s.writeFrame ⟨halfAt b 0, halfAt b 2⟩) .ok []) := by
  match b with
  | [] | [_] | [_, _] | [_, _, _] | _ :: _ :: _ :: _ :: _ :: _ => exact (checked_badLength (by simp)).symm
  | [n0, n1, t0, t1] =>
    have slots : halfAt [n0, n1, t0, t1] 0 = u16 n0 n1 := rfl
    have length : halfAt [n0, n1, t0, t1] 2 = u16 t0 t1 := rfl
    have fits : u16 t0 t1 ≤ 65535 := by
      have h0 := t0.isLt
      have h1 := t1.isLt
      unfold u16
      omega
    rw [slots, length, setFrame, headerOf, State.writeFrame]
    cases run : s.inRun <;> cases member : s.online p <;> cases standing : s.plan.proposal.isNone <;>
      by_cases range : 4 ≤ u16 n0 n1 ∧ u16 n0 n1 ≤ 256 ∧ 50 ≤ u16 t0 t1 <;>
      simp [checked_cons, checked_nil, State.frozen_eq, standing, range, fits]

theorem exec_setFrame (b : List Byte) :
    exec (.setFrame p b) s = command (.setFrame p b) p s fun s => setFrame s p b := rfl

theorem State.writeFrame_changes (h : Header) : ChangesOnly s (s.writeFrame h) [.cal, .mbc, .att] :=
  .ite ((s.setShadowHeader_changes h).mono (by simp)) (s.frameInSetup_changes h)

theorem State.clearReady_mbc : s.clearReady.mbc = { s.mbc with ports := s.clearReady.mbc.ports } := by
  unfold State.clearReady
  induction s.readyPorts generalizing s with
  | nil => rfl
  | cons q ps ih => exact ih (clearReadyMark s q)

/-- R53: the write of the shadow header leaves its calendar alone but for that header. -/
theorem State.writeFrame_cal (h : Header) : (s.writeFrame h).cal = (s.setShadowHeader h).cal := by
  unfold State.writeFrame State.frameInSetup
  split
  · rfl
  · split
    · rfl
    · exact (State.clearReady_changes _).cal (by simp)

theorem State.writeFrame_mbc (h : Header) : (s.writeFrame h).mbc = { s.mbc with ports := (s.writeFrame h).mbc.ports } := by
  unfold State.writeFrame State.frameInSetup
  split
  · rfl
  · split
    · rfl
    · exact (s.setShadowHeader h).clearReady_mbc

end

/-- Settles O42: SET_FRAME is its checks in order and then the write of the shadow header. -/
theorem setFrameWritesShadowHeader : Obligations.SetFrameWritesShadowHeader := by
  unfold Obligations.SetFrameWritesShadowHeader
  intro s p b ht
  have writes := setFrame_eq s p b
  split
  next st failing => exact justAnswers_of_failing (exec_setFrame s p b) ht writes failing
  next passing =>
    obtain ⟨runs, answers, changes⟩ := answers_reply_of_act (exec_setFrame s p b) ht
      (writes.trans (checked_of_none passing _)) (s.writeFrame_changes _) (by simp)
    refine ⟨_, runs, answers, changes, ?_, ?_, ?_, s.writeFrame_mbc _, fun run => ?_⟩
    · rw [State.answer_cal, State.writeFrame_cal, State.setShadowHeader_cal, Cal.setShadow_active]
    · rw [State.answer_cal, State.writeFrame_cal, State.setShadowHeader_cal, Cal.activeBank_setShadow]
    · rw [State.answer_cal, State.writeFrame_cal, State.setShadowHeader_cal, Cal.shadow_setShadow, Bank.setHeader]
    · rw [State.answer_mbc, State.answer_att, State.writeFrame, if_pos run]
      exact ⟨rfl, rfl⟩

end Sys2Proof.Machine
end

section
/-! PROOFS. The Membership Controller's setup writes, JOIN and the start of RUN (10_membership_and_start_up.md, R152, R153,
R155, R157, R159; 05_cycle_timer.md, R80; 03_calendar_banks.md, R58). -/

namespace Sys2Proof.Machine

open Sys2Proof

/-! ## Setup writes -/

/-- A setup write is answered OK with the byte `changed` and leaves the port's parameters `w`, the proposal deadline `n`,
every other port's parameters and the exchange state, which is SETUP. -/
def WritesSetup (i : Instr) (s : State) (p : Port) (changed : Byte) (w : Params) (n : Nat) : Prop :=
  ∃ t, exec i s = .next t ∧ Answers s t p (.reply .ok [changed]) ∧ ChangesOnly s t [.link, .mbc, .att] ∧
    t.params p = w ∧ (∀ q, q ≠ p → t.params q = s.params q) ∧ t.mbc.deadline = n ∧ t.inRun = false

section

variable {i : Instr} {s : State} {p : Port} {act : State → State × Answer}

theorem State.clearReady_params (q : Port) : s.clearReady.params q = s.params q := by
  rw [State.params, s.clearReady_mbc]
  rfl

theorem State.clearReady_inRun : s.clearReady.inRun = s.inRun := by
  rw [State.inRun, s.clearReady_mbc]
  rfl

theorem State.clearReady_deadline : s.clearReady.mbc.deadline = s.mbc.deadline := by rw [s.clearReady_mbc]

/-- R152, R154: a write of parameters in SETUP sets them, and says whether they changed. -/
theorem writesSetup_of_writeParams {w : Params} {same : Prop} [Decidable same] (he : exec i s = command i p s act)
    (ht : s.takes i = true) (setup : s.inRun = false) (ha : act s = s.writeParams p w) (unchanged : s.params p = w ↔ same) :
    WritesSetup i s p (if same then 0 else 1) w s.mbc.deadline := by
  have changes := s.writeParams_changes p w
  unfold State.writeParams at ha changes
  by_cases h : s.params p = w
  · rw [if_pos h] at ha
    obtain ⟨runs, answers, changes⟩ := answers_reply_of_act he ht ha (.refl s [.mbc, .att]) (by simp)
    rw [if_pos (unchanged.1 h)]
    exact ⟨_, runs, answers, changes, h, fun _ _ => rfl, rfl, setup⟩
  · rw [if_neg h] at ha changes
    obtain ⟨runs, answers, changes⟩ := answers_reply_of_act he ht ha changes (by simp)
    rw [if_neg (mt unchanged.2 h)]
    refine ⟨_, runs, answers, changes, ?_, fun q other => ?_, ?_, ?_⟩
    · rw [State.params_answer, State.clearReady_params, State.params, State.setParams_mbc, PerPort.get_set, if_pos rfl]
    · rw [State.params_answer, State.clearReady_params, State.params, State.setParams_mbc, PerPort.get_set, if_neg other]
      rfl
    · exact (s.setParams p w).clearReady_deadline
    · exact (s.setParams p w).clearReady_inRun.trans setup

/-- R152, R154: a write of the proposal deadline in SETUP sets it, and says whether it changed. -/
theorem writesSetup_of_writeDeadline {n : Nat} (he : exec i s = command i p s act) (ht : s.takes i = true)
    (setup : s.inRun = false) (ha : act s = s.writeDeadline n) :
    WritesSetup i s p (if s.mbc.deadline = n then 0 else 1) (s.params p) n := by
  have changes := s.writeDeadline_changes n
  unfold State.writeDeadline at ha changes
  by_cases h : s.mbc.deadline = n
  · rw [if_pos h] at ha
    obtain ⟨runs, answers, changes⟩ := answers_reply_of_act he ht ha (.refl s [.mbc, .att]) (by simp)
    rw [if_pos h]
    exact ⟨_, runs, answers, changes, rfl, fun _ _ => rfl, h, setup⟩
  · rw [if_neg h] at ha changes
    obtain ⟨runs, answers, changes⟩ := answers_reply_of_act he ht ha changes (by simp)
    rw [if_neg h]
    exact ⟨_, runs, answers, changes, State.clearReady_params p, fun q _ => State.clearReady_params q,
      State.clearReady_deadline, State.clearReady_inRun.trans setup⟩

theorem State.setup_of_passing {checks : List (Bool × Status)} (passing : firstFailing checks = none)
    (h : (!s.inRun, .wrongState) ∈ checks) : s.inRun = false := by
  simpa using passes_of_none passing h

end

section

variable (s : State) (p : Port) (b0 b1 b2 b3 : Byte)

theorem exec_setQuota (b : List Byte) :
    exec (.setQuota p b) s = command (.setQuota p b) p s fun s => setQuota s p b := rfl

theorem exec_setRxq (b : List Byte) :
    exec (.setRxq p b) s = command (.setRxq p b) p s fun s => setRxq s p b := rfl

theorem exec_setLease (b : List Byte) :
    exec (.setLease p b) s = command (.setLease p b) p s fun s => setLease s p b := rfl

theorem exec_setDeadline (b : List Byte) :
    exec (.setDeadline p b) s = command (.setDeadline p b) p s fun s => setDeadline s b := rfl

/-- SET_QUOTA as a command. -/
theorem exec_setQuota_checked (ht : s.takes (.setQuota p [b0, b1, b2, b3]) = true) :
    match firstFailing [(!s.inRun, .wrongState),
      (decide (u16 b0 b1 ≤ 512 ∧ 1 ≤ u16 b2 b3 ∧ u16 b2 b3 ≤ 512), .badArgument),
      (decide (u16 b0 b1 ≤ u16 b2 b3), .badArgument), (decide (s.reserveSumWith p (u16 b0 b1) ≤ 512), .limit)] with
    | some st => JustAnswers (.setQuota p [b0, b1, b2, b3]) s p st []
    | none => WritesSetup (.setQuota p [b0, b1, b2, b3]) s p
        (if (s.params p).reserve = u16 b0 b1 ∧ (s.params p).ceiling = u16 b2 b3 then 0 else 1)
        { s.params p with reserve := u16 b0 b1, ceiling := u16 b2 b3 } s.mbc.deadline := by
  have writes := setQuota_eq s p [b0, b1, b2, b3]
  split
  next st failing => exact justAnswers_of_failing (exec_setQuota s p _) ht writes failing
  next passing =>
    refine writesSetup_of_writeParams (exec_setQuota s p _) ht (State.setup_of_passing passing (by simp))
      (writes.trans (checked_of_none passing _)) ⟨fun same => ?_, fun same => ?_⟩
    · exact ⟨congrArg Params.reserve same, congrArg Params.ceiling same⟩
    · rw [← same.1, ← same.2]

/-- SET_RXQ as a command. -/
theorem exec_setRxq_checked (ht : s.takes (.setRxq p [b0, b1]) = true) :
    match firstFailing [(!s.inRun, .wrongState),
      (decide (4 ≤ b0.toNat ∧ b0.toNat ≤ 32 ∧ 1 ≤ b1.toNat ∧ b1.toNat ≤ b0.toNat), .badArgument)] with
    | some st => JustAnswers (.setRxq p [b0, b1]) s p st []
    | none => WritesSetup (.setRxq p [b0, b1]) s p
        (if (s.params p).depth = b0.toNat ∧ (s.params p).watermark = b1.toNat then 0 else 1)
        { s.params p with depth := b0.toNat, watermark := b1.toNat } s.mbc.deadline := by
  have writes := setRxq_eq s p [b0, b1]
  split
  next st failing => exact justAnswers_of_failing (exec_setRxq s p _) ht writes failing
  next passing =>
    refine writesSetup_of_writeParams (exec_setRxq s p _) ht (State.setup_of_passing passing (by simp))
      (writes.trans (checked_of_none passing _)) ⟨fun same => ?_, fun same => ?_⟩
    · exact ⟨congrArg Params.depth same, congrArg Params.watermark same⟩
    · rw [← same.1, ← same.2]

/-- SET_LEASE as a command. -/
theorem exec_setLease_checked (ht : s.takes (.setLease p [b0, b1, b2]) = true) :
    match firstFailing [(!s.inRun, .wrongState),
      (decide (1 ≤ u16 b0 b1 ∧ u16 b0 b1 ≤ 1000 ∧ b2.toNat ≤ 7), .badArgument)] with
    | some st => JustAnswers (.setLease p [b0, b1, b2]) s p st []
    | none => WritesSetup (.setLease p [b0, b1, b2]) s p
        (if (s.params p).leaseTime = u16 b0 b1 ∧ (s.params p).redelivery = b2.toNat then 0 else 1)
        { s.params p with leaseTime := u16 b0 b1, redelivery := b2.toNat } s.mbc.deadline := by
  have writes := setLease_eq s p [b0, b1, b2]
  split
  next st failing => exact justAnswers_of_failing (exec_setLease s p _) ht writes failing
  next passing =>
    refine writesSetup_of_writeParams (exec_setLease s p _) ht (State.setup_of_passing passing (by simp))
      (writes.trans (checked_of_none passing _)) ⟨fun same => ?_, fun same => ?_⟩
    · exact ⟨congrArg Params.leaseTime same, congrArg Params.redelivery same⟩
    · rw [← same.1, ← same.2]

/-- SET_DEADLINE as a command. -/
theorem exec_setDeadline_checked (ht : s.takes (.setDeadline p [b0]) = true) :
    match firstFailing [(!s.inRun, .wrongState), (decide (1 ≤ b0.toNat ∧ b0.toNat ≤ 15), .badArgument)] with
    | some st => JustAnswers (.setDeadline p [b0]) s p st []
    | none => WritesSetup (.setDeadline p [b0]) s p (if s.mbc.deadline = b0.toNat then 0 else 1) (s.params p) b0.toNat := by
  have writes := setDeadline_eq s [b0]
  split
  next st failing => exact justAnswers_of_failing (exec_setDeadline s p _) ht writes failing
  next passing =>
    exact writesSetup_of_writeDeadline (exec_setDeadline s p _) ht (State.setup_of_passing passing (by simp))
      (writes.trans (checked_of_none passing _))

end

/-- Settles O15: each setup write is its checks in order and then the write of the parameters it carries. -/
theorem setupWritesCheckAndSet : Obligations.SetupWritesCheckAndSet := by
  unfold Obligations.SetupWritesCheckAndSet
  refine fun s p b0 b1 b2 b3 => ⟨fun ht => ?_, fun ht => ?_, fun ht => ?_, fun ht => ?_, fun i b ht hi => ?_⟩
  · exact exec_setQuota_checked s p b0 b1 b2 b3 ht
  · exact exec_setRxq_checked s p b0 b1 ht
  · exact exec_setLease_checked s p b0 b1 b2 ht
  · have writes := exec_setDeadline_checked s p b0 ht
    split
    next st failing =>
      rw [failing] at writes
      exact writes
    next passing =>
      rw [passing] at writes
      obtain ⟨t, runs, answers, changes, own, others, rest⟩ := writes
      refine ⟨t, runs, answers, changes, fun q => ?_, rest⟩
      by_cases h : q = p
      · rw [h, own]
      · exact others q h
  · rcases hi with ⟨rfl, bad⟩ | ⟨rfl, bad⟩ | ⟨rfl, bad⟩ | ⟨rfl, bad⟩
    · exact justAnswers_of_act (exec_setQuota s p b) ht ((setQuota_eq s p b).trans (checked_badLength (decide_eq_false bad)))
    · exact justAnswers_of_act (exec_setRxq s p b) ht ((setRxq_eq s p b).trans (checked_badLength (decide_eq_false bad)))
    · exact justAnswers_of_act (exec_setLease s p b) ht ((setLease_eq s p b).trans (checked_badLength (decide_eq_false bad)))
    · exact justAnswers_of_act (exec_setDeadline s p b) ht ((setDeadline_eq s b).trans (checked_badLength (decide_eq_false bad)))

/-! ## JOIN -/

/-- R159: JOIN is its checks in order and then the port's new state, told to the other ONLINE ports. -/
theorem join_eq (s : State) (p : Port) (b : List Byte) : join s p b =
    checked s [(decide (b = []), .badLength), (s.inRun, .wrongState), (!s.online p, .wrongState)]
      (reply ((s.setPort p .online).raiseAll .memberChange (s.otherOnline p)) .ok (le16 s.timer.cycle.toNat)) := by
  match b with
  | _ :: _ => rfl
  | [] => exact refuse_else_eq_checked (by simp) (refuse_else_eq_checked (by simp) rfl)

theorem exec_join (s : State) (p : Port) (b : List Byte) :
    exec (.join p b) s = command (.join p b) p s fun s => join s p b := rfl

theorem State.otherOnline_nodup (s : State) (p : Port) : (s.otherOnline p).Nodup := Port.nodup_all.filter _

/-- Settles O19: JOIN is its checks in order and then one new port state and one raise to each other ONLINE port. -/
theorem joinMakesPortOnline : Obligations.JoinMakesPortOnline := by
  unfold Obligations.JoinMakesPortOnline
  intro s p b ht
  have joins := join_eq s p b
  split
  next st failing => exact justAnswers_of_failing (exec_join s p b) ht joins failing
  next passing =>
    obtain ⟨runs, answers, changes⟩ := answers_reply_of_act (parts := [.mbc, .att]) (exec_join s p b) ht (joins.trans (checked_of_none passing _))
      (((s.setPort_changes p .online).mono (by simp)).comp ((State.raiseAll_changes _ _ _).mono (by simp))) (by simp)
    refine ⟨_, runs, ⟨_, answers, rfl, halfAt_of_half_bytes rfl rfl⟩, changes, ?_, ?_⟩
    · rw [State.answer_mbc, State.raiseAll_mbc, State.setPort_mbc]
    · exact State.raiseAll_att .memberChange _ (s.setPort p .online) (s.otherOnline_nodup p)

/-! ## The start of RUN -/

section

variable (c : Cal) (k : Bank)

@[simp] theorem Cal.setActive_active : (c.setActive k).active = c.active := by
  cases h : c.active <;> simp [Cal.setActive, Cal.setBank, h]

@[simp] theorem Cal.activeBank_setActive : (c.setActive k).activeBank = k := by
  cases h : c.active <;> simp [Cal.activeBank, Cal.bank, Cal.setActive, Cal.setBank, h]

@[simp] theorem Cal.shadow_setActive : (c.setActive k).shadow = c.shadow := by
  cases h : c.active <;> simp [Cal.shadow, Cal.bank, Cal.setActive, Cal.setBank, BankId.other, h]

end

/-- R80: with no proposal standing and no RELEASE entry in the active bank, the start of the timer starts cycle 0 and
does nothing else. -/
theorem State.startTimer_of_idle {s : State} (none : s.plan.proposal = none)
    (empty : ∀ i, (s.cal.activeBank.entries.at i).release = Option.none) :
    s.startTimer = { s with timer := { s.timer with
      state := .running, cycle := 0, slot := 0, header := s.cal.activeBank.header
      nextSlot := some (s.timer.timeBase + BitVec.ofNat 32 s.cal.activeBank.header.length)
      syncOut := true, syncEnd := some (s.timer.timeBase + 8) } } := by
  have bounds : ∀ tm : Timer, ({ s with timer := tm } : State).planBoundary = { s with timer := tm } := by
    intro tm
    simp only [State.planBoundary, none]
  have passes : ∀ tm : Timer, ({ s with timer := tm } : State).releasePass = { s with timer := tm } := by
    intro tm
    simp only [State.releasePass, State.currentEntry, empty]
  unfold State.startTimer State.boundary
  simp only [bounds, State.scheduleNext]
  exact passes _

/-- R157, R58, R80: what the start of RUN leaves, with no proposal standing and every entry of the active bank EMPTY. -/
theorem State.startRun_of_idle {s : State} (none : s.plan.proposal = none)
    (empty : ∀ i, (s.cal.activeBank.entries.at i).release = Option.none) :
    s.startRun = { s with
      mbc := s.mbc.start
      att := (s.raiseAll .exchangeRun s.readyPorts).att
      cal := s.cal.setActive (s.cal.activeBank.setHeader s.cal.shadow.header)
      timer := { s.timer with
        state := .running, cycle := 0, slot := 0, header := s.cal.shadow.header
        nextSlot := some (s.timer.timeBase + BitVec.ofNat 32 s.cal.shadow.header.length)
        syncOut := true, syncEnd := some (s.timer.timeBase + 8) } } := by
  have raises : ({ s with mbc := s.mbc.start } : State).raiseAll .exchangeRun s.readyPorts =
      { s with mbc := s.mbc.start, att := (s.raiseAll .exchangeRun s.readyPorts).att } := by
    rw [State.raiseAll_eq]
    congr 1
    refine PerPort.ext_get fun q => ?_
    rw [State.raiseAll_att _ _ _ s.readyPorts_nodup, State.raiseAll_att _ _ _ s.readyPorts_nodup]
  rw [State.startRun, raises, State.startTimer_of_idle]
  · simp [State.copyHeader, Bank.setHeader]
  · exact none
  · intro i
    simpa [State.copyHeader, Bank.setHeader] using empty i

/-- Settles O18: the last READY is the mark and the start of RUN; a lawful SETUP leaves the timer nothing else to do. -/
theorem lastReadyStartsRun : Obligations.LastReadyStartsRun := by
  unfold Obligations.LastReadyStartsRun
  intro s p ht setup off others none empty
  have last : s.othersOffline p = [] := by
    refine List.filter_eq_nil_iff.2 fun q _ => ?_
    by_cases own : q = p
    · simp [own]
    · simp [others q own]
  have acts : ready s p [] = reply (s.setPort p .ready).startRun .ok [0] := by
    rw [ready_eq, checked_readyChecks_nil, setup, if_neg (by simp), if_pos ⟨off, last⟩, State.markReady, if_pos off, last]
    rfl
  have starts := State.startRun_of_idle (s := s.setPort p .ready) none fun i => by
    have unowned := empty s.cal.active i
    unfold Cal.activeBank
    rw [State.setPort_cal, unowned]
    rfl
  have ready : (s.setPort p .ready).readyPorts = Port.all.filter fun q => q == p || s.portState q == .ready := by
    refine List.filter_congr fun q _ => ?_
    by_cases own : q = p <;> simp [own]
  obtain ⟨runs, answers, changes⟩ := answers_reply_of_act (parts := [.mbc, .att, .cal, .timer]) (exec_ready s p []) ht acts
    (by rw [starts]; intro x hx; cases x <;> first | rfl | simp at hx) (by simp)
  have run : (s.setPort p .ready).startRun.inRun = true := by rw [starts]; rfl
  refine ⟨_, runs, answers, changes, run, by simp [State.formed_eq, run], ?_, ?_, fun q => ?_, fun q => ?_, ?_, ?_, ?_, ?_⟩
  · rw [State.answer_mbc, starts]
    rfl
  · rw [State.answer_mbc, starts]
    rfl
  · rw [State.portState_answer, starts]
    simp only [State.portState, Mbc.start, PerPort.get_ofFn, State.setPort_mbc, PerPort.get_set]
    by_cases own : q = p <;> simp [own]
  · rw [State.answer_att, starts, ready]
    exact State.raiseAll_att .exchangeRun _ (s.setPort p .ready) (Port.nodup_all.filter _) q
  · rw [State.answer_cal, starts]
    exact Cal.setActive_active _ _
  · rw [State.answer_cal, starts]
    exact Cal.shadow_setActive _ _
  · rw [State.answer_cal, starts]
    exact Cal.activeBank_setActive _ _
  · rw [State.answer_timer, starts]
    rfl

end Sys2Proof.Machine
end

section
/-! PROOFS. The Lane Unit's commands (02_lanes.md, R25 to R27, R32, R33, R37): OPEN_LANE, CLOSE_LANE, PURGE_LANE and
LANE_INFO are their checks in order and then at most one change of the lane named. -/

namespace Sys2Proof.Machine

open Sys2Proof

/-! ## Lanes and entries -/

theorem State.laneNo_of_val (s : State) {l : LaneId} {n : Nat} (h : l.val = n) : s.laneNo n = s.lane l := by
  subst h
  rw [State.laneNo, dif_pos l.isLt]

theorem laneAt_eq {b : List Byte} {i : Nat} {l : LaneId} (h : l.val = byteAt b i) : laneAt b i = l :=
  Fin.ext ((laneAt_val (h ▸ l.isLt)).trans h.symm)

/-- Table 2-4: the checks of a lane command from the second on, put before the checks of its own. -/
theorem laneChecks_eq_checked {s : State} {p : Port} {lane : Byte} {act : LaneId → State × Answer}
    {checks : List (Bool × Status)} {done : State × Answer}
    (own : ∀ l : LaneId, l.val = lane.toNat → act l = checked s checks done) :
    laneChecks s p lane act = checked s
      ((s.inRun, .wrongState) :: (s.online p, .notMember) :: (decide (lane.toNat < 32), .badArgument) :: checks) done := by
  rw [checked_member, laneChecks, checked_cons]
  congr 1
  by_cases low : lane.toNat < 32
  · rw [laneOf_of_lt (l := ⟨_, low⟩) rfl, if_pos (decide_eq_true low)]
    exact own ⟨_, low⟩ rfl
  · rw [laneOf_eq_none low, if_neg (by simpa using low)]

/-- Two checks with one status are one check. -/
theorem checked_cons_cons (s : State) (a b : Bool) (st : Status) (rest : List (Bool × Status)) (act : State × Answer) :
    checked s ((a, st) :: (b, st) :: rest) act = checked s ((a && b, st) :: rest) act := by
  cases a <;> rfl

/-- An entry is RELEASE and names a lane by its number. -/
theorem Entry.namesLane_iff (e : Entry) (l : LaneId) : e.namesLane l = true ↔ ∃ r, e.release = some r ∧ r.lane = l := by
  unfold Entry.namesLane
  split
  next r h => simp [h]
  next h => simp [h]

/-- R46: a bank names a lane when one of its entries does. -/
theorem Bank.names_iff (b : Bank) (l : LaneId) :
    b.names l = true ↔ ∃ i r, (b.entries.at i).release = some r ∧ r.lane = l := by
  simp only [Bank.names, List.any_eq_true, Tbl.mem_toList_iff]
  constructor
  · rintro ⟨_, ⟨i, rfl⟩, named⟩
    exact ⟨i, (Entry.namesLane_iff _ l).1 named⟩
  · rintro ⟨i, named⟩
    exact ⟨_, ⟨i, rfl⟩, (Entry.namesLane_iff _ l).2 named⟩

/-- An entry names no lane of the number `n`. -/
def Entry.avoids (e : Entry) (n : Nat) : Bool :=
  match e.release with
  | none => true
  | some r => r.lane.val != n

theorem Entry.avoids_iff (e : Entry) (l : LaneId) : e.avoids l.val = true ↔ e.namesLane l = false := by
  unfold Entry.avoids Entry.namesLane
  cases e.release with
  | none => simp
  | some r => simp [Fin.ext_iff]

/-- No entry of a bank names the lane of number `n`. -/
def Bank.avoids (b : Bank) (n : Nat) : Bool := (List.finRange 256).all fun i => (b.entries.at i).avoids n

theorem Bank.avoids_eq (b : Bank) (l : LaneId) : b.avoids l.val = !b.names l := by
  rw [Bool.eq_iff_iff, Bank.avoids]
  simp only [List.all_eq_true, List.mem_finRange, true_implies, Entry.avoids_iff, Bool.not_eq_true', Bank.names,
    List.any_eq_false, Tbl.mem_toList_iff, Bool.not_eq_true]
  constructor
  · rintro all _ ⟨i, rfl⟩
    exact all i
  · exact fun all i => all _ ⟨i, rfl⟩

/-! ## CLOSE_LANE -/

section

variable (s : State) (p : Port)

/-- The checks of CLOSE_LANE. -/
def closeLaneChecks (b : List Byte) : List (Bool × Status) :=
  [(decide (b.length = 1), .badLength), (s.inRun, .wrongState), (s.online p, .notMember),
    (decide (byteAt b 0 < 32), .badArgument), ((s.laneNo (byteAt b 0)).state != .closed, .laneState),
    ((s.laneNo (byteAt b 0)).owner == some p, .notOwner), ((s.laneNo (byteAt b 0)).state != .draining, .laneState),
    (s.plan.proposal.isNone || s.cal.shadow.avoids (byteAt b 0), .inPlan)]

/-- R32, R33: CLOSE_LANE is its checks in order and then the lane's new state. -/
theorem closeLane_eq (b : List Byte) : closeLane s p b = checked s (closeLaneChecks s p b)
    (reply (s.modLane (laneAt b 0) (Lane.become (s.laneNo (byteAt b 0)).closeState)) .ok
      [(s.laneNo (byteAt b 0)).closeState.code]) := by
  match b with
  | [] | _ :: _ :: _ => exact (checked_badLength (by simp)).symm
  | [lane] =>
    refine laneChecks_eq_checked fun l named => ?_
    rw [s.laneNo_of_val (n := byteAt [lane] 0) named, laneAt_eq (b := [lane]) (i := 0) named]
    have avoids : s.cal.shadow.avoids (byteAt [lane] 0) = !s.cal.shadow.names l := by
      rw [← Bank.avoids_eq, named]
      rfl
    exact refuse_else_eq_checked (by simp) <| refuse_else_eq_checked (by simp) <| refuse_else_eq_checked (by simp) <|
      refuse_else_eq_checked (by rw [avoids, State.frozen_eq]; cases s.plan.proposal <;> simp) rfl

theorem exec_closeLane (b : List Byte) :
    exec (.closeLane p b) s = command (.closeLane p b) p s fun s => closeLane s p b := rfl

end

theorem Lane.closeState_code (ln : Lane) : ln.closeState.code = if ln.queue = [] then 0 else 2 := by
  unfold Lane.closeState
  split <;> rfl

/-- What an update of one lane leaves of the others. -/
theorem State.modLane_onlyAt (s : State) (l : LaneId) (f : Lane → Lane) :
    OnlyAtIndex l s.lanes (s.modLane l f).lanes := fun j other => by simp [other]

/-- Settles O23: CLOSE_LANE is its checks in order and then the lane's new state. -/
theorem closeLaneChecksThenCloses : Obligations.CloseLaneChecksThenCloses := by
  unfold Obligations.CloseLaneChecksThenCloses
  intro s p b ht
  have closes := closeLane_eq s p b
  dsimp only
  split
  next st failing => exact justAnswers_of_failing (exec_closeLane s p b) ht closes failing
  next passing =>
    have low : byteAt b 0 < 32 := of_decide_eq_true (passes_of_none passing (st := .badArgument) (by simp))
    obtain ⟨runs, answers, changes⟩ := answers_reply_of_act (exec_closeLane s p b) ht
      (closes.trans (checked_of_none passing _)) (s.modLane_changes _ _) (by simp)
    rw [Lane.closeState_code] at answers runs changes
    refine ⟨_, laneAt b 0, runs, answers, changes, laneAt_val low, s.modLane_onlyAt _ _, ?_⟩
    rw [State.lane_answer, State.lane_modLane, if_pos rfl]
    rfl

/-! ## OPEN_LANE -/

/-- The set of ports whose bits are set in a byte. -/
def portsOf (x : Byte) : PortSet := PerPort.ofFn fun q => x.toNat / 2 ^ q.toNat % 2 == 1

theorem getLsbD_eq_bit (x : Byte) (i : Nat) : x.getLsbD i = (x.toNat / 2 ^ i % 2 == 1) := by
  rw [BitVec.getLsbD, ← Nat.toNat_testBit]
  cases x.toNat.testBit i <;> rfl

/-- R178: a byte gives a set of ports where none of its bits 4 to 7 is set. -/
theorem portSetOf_eq (x : Byte) : portSetOf x = if x.toNat ≤ 15 then some (portsOf x) else none := by
  have nibble : ∀ x : Byte, x &&& 0xF0 = 0 ↔ x.toNat ≤ 15 := by decide
  simp only [portSetOf, nibble, getLsbD_eq_bit]
  rfl

theorem portsOf_ne_nil (x : Byte) (h : x.toNat ≤ 15) :
    (PortSet.toList (portsOf x) != []) = decide (1 ≤ x.toNat) := by
  have nibble : ∀ x : Byte, x.toNat ≤ 15 → (PortSet.toList (portsOf x) != []) = decide (1 ≤ x.toNat) := by decide
  exact nibble x h

/-- Every port of a set that a byte gives by its bits is enabled. -/
theorem State.allEnabled_portsOf (s : State) (x : Byte) :
    s.allEnabled (portsOf x) = Port.all.all fun q => x.toNat / 2 ^ q.toNat % 2 == 0 || s.portState q != .disabled := by
  rw [Bool.eq_iff_iff]
  simp only [State.allEnabled, List.all_eq_true, PortSet.mem_toList, portsOf, PerPort.get_ofFn, Port.mem_all,
    true_implies, Bool.or_eq_true, beq_iff_eq]
  refine forall_congr' fun q => ?_
  rcases Nat.mod_two_eq_zero_or_one (x.toNat / 2 ^ q.toNat) with bit | bit <;> simp [bit]

theorem policyOf_eq (x : Byte) : policyOf x = if x.toNat ≤ 1 then some (if x.toNat = 0 then .miss else .hold) else none := by
  simp only [policyOf, Byte.eq_zero_iff, Byte.eq_one_iff]
  by_cases h0 : x.toNat = 0
  · simp [h0]
  · by_cases h1 : x.toNat = 1
    · simp [h1]
    · simp [h0, h1, show ¬ x.toNat ≤ 1 by omega]

theorem reportModeOf_eq (x : Byte) : reportModeOf x =
    if x.toNat ≤ 2 then some (if x.toNat = 0 then .none else if x.toNat = 1 then .failures else .all) else none := by
  have two : x = 2 ↔ x.toNat = 2 := BitVec.toNat_inj.symm
  simp only [reportModeOf, Byte.eq_zero_iff, Byte.eq_one_iff, two]
  by_cases h0 : x.toNat = 0
  · simp [h0]
  · by_cases h1 : x.toNat = 1
    · simp [h1]
    · by_cases h2 : x.toNat = 2
      · simp [h2]
      · simp [h0, h1, h2, show ¬ x.toNat ≤ 2 by omega]

section

variable (s : State) (p : Port)

/-- The settings that an OPEN_LANE of `p` carries, its argument bytes being in range (Table 11-21). -/
def settingsAt (b : List Byte) : LaneSettings :=
  ⟨p, portsOf (b.getD 1 0), byteAt b 2, if byteAt b 3 = 0 then .miss else .hold,
    if byteAt b 4 = 0 then .none else if byteAt b 4 = 1 then .failures else .all, byteAt b 5⟩

/-- R26, check 1: the destinations of an OPEN_LANE are a nonempty set of ports. -/
def destsInRange (b : List Byte) : Bool := decide (1 ≤ byteAt b 1 ∧ byteAt b 1 ≤ 15)

/-- R26, check 1: the destinations of an OPEN_LANE are enabled. -/
def State.destsEnabled (b : List Byte) : Bool :=
  Port.all.all fun q => byteAt b 1 / 2 ^ q.toNat % 2 == 0 || s.portState q != .disabled

/-- R26, check 1: the depth, the policy and the report mode of an OPEN_LANE are in range. -/
def modesInRange (b : List Byte) : Bool := decide (1 ≤ byteAt b 2 ∧ byteAt b 2 ≤ 32 ∧ byteAt b 3 ≤ 1 ∧ byteAt b 4 ≤ 2)

/-- R26, check 1: the settings are those the argument bytes give, where all are in range. -/
theorem openSettings_eq (lane dest depth policy mode age : Byte) :
    let b := [lane, dest, depth, policy, mode, age]
    openSettings s p dest depth policy mode age =
      if destsInRange b && (s.destsEnabled b && modesInRange b) then some (settingsAt p b) else none := by
  have enabled := s.allEnabled_portsOf dest
  simp only [openSettings, portSetOf_eq, policyOf_eq, reportModeOf_eq, destsInRange, modesInRange, byteAt,
    List.getD_cons_succ, List.getD_cons_zero]
  have same : s.destsEnabled [lane, dest, depth, policy, mode, age] = s.allEnabled (portsOf dest) := enabled.symm
  rw [same]
  by_cases dests : dest.toNat ≤ 15 <;> by_cases pol : policy.toNat ≤ 1 <;> by_cases rm : mode.toNat ≤ 2
  case pos =>
    simp only [dests, pol, rm, if_true, portsOf_ne_nil dest dests, and_true,
      Bool.decide_and, Bool.and_assoc]
    rfl
  all_goals simp [dests, pol, rm]

/-- No entry of either bank names the lane of number `n` (R26, check 3). -/
def State.unscheduled (n : Nat) : Bool := [BankId.a, .b].all fun bk => (s.cal.bank bk).avoids n

theorem State.unscheduled_eq (l : LaneId) : s.unscheduled l.val = !s.cal.names l := by
  simp [State.unscheduled, Bank.avoids_eq, Cal.names, Cal.bank]

/-- The checks of OPEN_LANE. -/
def openLaneChecks (b : List Byte) : List (Bool × Status) :=
  [(decide (b.length = 6), .badLength), (s.inRun, .wrongState), (s.online p, .notMember),
    (decide (byteAt b 0 < 32), .badArgument), (destsInRange b, .badArgument), (s.destsEnabled b, .badArgument),
    (modesInRange b, .badArgument), ((s.laneNo (byteAt b 0)).state == .closed, .laneState),
    (s.unscheduled (byteAt b 0), .laneScheduled)]

/-- R26, R27: OPEN_LANE is its checks in order and then the lane with its new settings. -/
theorem openLane_eq (b : List Byte) : openLane s p b = checked s (openLaneChecks s p b)
    (reply (s.modLane (laneAt b 0) (openedLane (settingsAt p b))) .ok []) := by
  match b with
  | [] | [_] | [_, _] | [_, _, _] | [_, _, _, _] | [_, _, _, _, _] | _ :: _ :: _ :: _ :: _ :: _ :: _ :: _ =>
    exact (checked_badLength (by simp)).symm
  | [lane, dest, depth, policy, mode, age] =>
    refine laneChecks_eq_checked fun l named => ?_
    rw [s.laneNo_of_val (n := byteAt [lane, dest, depth, policy, mode, age] 0) named,
      laneAt_eq (b := [lane, dest, depth, policy, mode, age]) (i := 0) named, checked_cons_cons, checked_cons_cons,
      Bool.and_assoc, checked_cons, openSettings_eq s p lane]
    have scheduled : s.unscheduled (byteAt [lane, dest, depth, policy, mode, age] 0) = !s.cal.names l := by
      rw [← State.unscheduled_eq, named]
      rfl
    generalize (destsInRange _ && (s.destsEnabled _ && modesInRange _)) = inRange
    cases inRange with
    | false => rfl
    | true => exact refuse_else_eq_checked (by simp) (refuse_else_eq_checked (by simp [scheduled]) rfl)

theorem exec_openLane (b : List Byte) :
    exec (.openLane p b) s = command (.openLane p b) p s fun s => openLane s p b := rfl

end

/-- Settles O22: OPEN_LANE is its checks in order and then the lane with the settings it carries. -/
theorem openLaneChecksThenOpens : Obligations.OpenLaneChecksThenOpens := by
  unfold Obligations.OpenLaneChecksThenOpens
  intro s p b ht
  have opens := openLane_eq s p b
  dsimp only
  split
  next st failing => exact justAnswers_of_failing (exec_openLane s p b) ht opens failing
  next passing =>
    have low : byteAt b 0 < 32 := of_decide_eq_true (passes_of_none passing (st := .badArgument) (by simp))
    obtain ⟨runs, answers, changes⟩ := answers_reply_of_act (exec_openLane s p b) ht
      (opens.trans (checked_of_none passing _)) (s.modLane_changes _ _) (by simp)
    refine ⟨_, laneAt b 0, portsOf (b.getD 1 0), runs, answers, changes, laneAt_val low, s.modLane_onlyAt _ _,
      fun q => PerPort.get_ofFn _ q, ?_⟩
    rw [State.lane_answer, State.lane_modLane, if_pos rfl]
    rfl

/-! ## PURGE_LANE -/

section

variable (s : State) (p : Port)

/-- The checks of PURGE_LANE. -/
def purgeLaneChecks (b : List Byte) : List (Bool × Status) :=
  [(decide (b.length = 1), .badLength), (s.inRun, .wrongState), (s.online p, .notMember),
    (decide (byteAt b 0 < 32), .badArgument), ((s.laneNo (byteAt b 0)).state != .closed, .laneState),
    ((s.laneNo (byteAt b 0)).owner == some p, .notOwner)]

/-- R35: a lane purged, a DRAINING one CLOSED. -/
def State.purgeClose (l : LaneId) : State := (s.purge l).modLane l (Lane.become (s.lane l).purgeState)

/-- R35: PURGE_LANE is its checks in order and then the purge. -/
theorem purgeLane_eq (b : List Byte) : purgeLane s p b = checked s (purgeLaneChecks s p b)
    (reply (s.purgeClose (laneAt b 0)) .ok
      [byteOf (s.laneNo (byteAt b 0)).queue.length, (s.laneNo (byteAt b 0)).purgeState.code]) := by
  match b with
  | [] | _ :: _ :: _ => exact (checked_badLength (by simp)).symm
  | [lane] =>
    refine laneChecks_eq_checked fun l named => ?_
    rw [s.laneNo_of_val (n := byteAt [lane] 0) named, laneAt_eq (b := [lane]) (i := 0) named]
    exact refuse_else_eq_checked (by simp) <| refuse_else_eq_checked (by simp) rfl

theorem exec_purgeLane (b : List Byte) :
    exec (.purgeLane p b) s = command (.purgeLane p b) p s fun s => purgeLane s p b := rfl

end

/-! ## LANE_INFO -/

section

variable (s : State) (p : Port)

/-- R37: LANE_INFO is its checks in order and then the bytes of Table 11-21. -/
theorem laneInfo_eq (b : List Byte) : laneInfo s p b =
    checked s [(decide (b.length = 1), .badLength), (s.inRun, .wrongState), (s.online p, .notMember),
      (decide (byteAt b 0 < 32), .badArgument)] (reply s .ok (laneInfoBytes s (laneAt b 0))) := by
  match b with
  | [] | _ :: _ :: _ => exact (checked_badLength (by simp)).symm
  | [lane] =>
    refine laneChecks_eq_checked fun l named => ?_
    rw [laneAt_eq (b := [lane]) (i := 0) named]
    rfl

theorem exec_laneInfo (b : List Byte) :
    exec (.laneInfo p b) s = command (.laneInfo p b) p s fun s => laneInfo s p b := rfl

variable (l : LaneId)

/-- The four flags of LANE_INFO, as the set of ports with the same bits. -/
def State.laneFlags : PortSet :=
  ⟨(s.lane l).settings.isSome, (s.lane l).queue != [], s.cal.activeBank.names l, s.cal.shadow.names l⟩

/-- Table 11-21, part by part. -/
theorem laneInfoBytes_eq : laneInfoBytes s l = [byteOf l.val, (s.lane l).state.code, portSetByte (s.laneFlags l)] ++
    (settingsBytes (s.lane l).settings ++ (byteOf (s.lane l).queue.length ::
      (headBytes s (s.lane l) ++ (s.lane l).counters.bytes))) := by
  simp [laneInfoBytes, portSetByte, State.laneFlags]

@[simp] theorem settingsBytes_length (t? : Option LaneSettings) : (settingsBytes t?).length = 6 := by cases t? <;> rfl

@[simp] theorem headBytes_length (ln : Lane) : (headBytes s ln).length = 3 := by
  unfold headBytes
  split <;> rfl

theorem laneInfoBytes_length : (laneInfoBytes s l).length = 25 := by
  simp [laneInfoBytes_eq, LaneCounters.bytes]

/-- Bytes 0 to 2 of LANE_INFO are the lane number, the lane state and the flags. -/
theorem laneInfoBytes_first {j : Nat} (h : j < 3) : byteAt (laneInfoBytes s l) j =
    byteAt [byteOf l.val, (s.lane l).state.code, portSetByte (s.laneFlags l)] j := by
  rw [laneInfoBytes_eq, byteAt_append_left (by simpa using h)]

theorem laneInfoBytes_lane : byteAt (laneInfoBytes s l) 0 = l.val :=
  (laneInfoBytes_first s l (by omega)).trans ((byteOf_toNat _).trans (Nat.mod_eq_of_lt (l.isLt.trans (by decide))))

theorem laneInfoBytes_state : byteAt (laneInfoBytes s l) 1 =
    match (s.lane l).state with | .closed => 0 | .opened => 1 | .draining => 2 := by
  refine (laneInfoBytes_first s l (by omega)).trans ?_
  simp only [byteAt, List.getD_cons_succ, List.getD_cons_zero]
  cases (s.lane l).state <;> rfl

/-- Bit q of the flags of LANE_INFO. -/
theorem laneInfoBytes_flag (q : Port) :
    byteAt (laneInfoBytes s l) 2 / 2 ^ q.toNat % 2 = ((s.laneFlags l).get q).toNat := by
  rw [laneInfoBytes_first s l (by omega)]
  exact portSetByte_bit _ q

/-- Bytes 3 to 8 of LANE_INFO are the settings. -/
theorem laneInfoBytes_settings {j : Nat} (high : j < 6) :
    byteAt (laneInfoBytes s l) (3 + j) = byteAt (settingsBytes (s.lane l).settings) j := by
  rw [laneInfoBytes_eq, byteAt_append_right (by simp), byteAt_append_left (by simp; omega)]
  simp

/-- Byte 9 of LANE_INFO is the number of messages in the queue. -/
theorem laneInfoBytes_count : byteAt (laneInfoBytes s l) 9 = (s.lane l).queue.length % 256 := by
  rw [laneInfoBytes_eq, byteAt_append_right (by simp), byteAt_append_right (by simp)]
  simp only [settingsBytes_length, List.length_cons, List.length_nil]
  exact byteOf_toNat _

/-- Bytes 10 to 12 of LANE_INFO are the head of the queue. -/
theorem laneInfoBytes_head {j : Nat} (high : j < 3) :
    byteAt (laneInfoBytes s l) (10 + j) = byteAt (headBytes s (s.lane l)) j := by
  rw [laneInfoBytes_eq, byteAt_append_right (by simp; omega), byteAt_append_right (by simp; omega)]
  simp only [settingsBytes_length, List.length_cons, List.length_nil, show 10 + j - (0 + 1 + 1 + 1) - 6 = j + 1 by omega]
  exact byteAt_append_left (by simpa using high)

/-- Bytes 13 to 24 of LANE_INFO are the counters. -/
theorem laneInfoBytes_counter (j : Nat) :
    byteAt (laneInfoBytes s l) (13 + j) = byteAt (s.lane l).counters.bytes j := by
  rw [laneInfoBytes_eq, byteAt_append_right (by simp; omega), byteAt_append_right (by simp; omega)]
  simp only [settingsBytes_length, List.length_cons, List.length_nil, show 13 + j - (0 + 1 + 1 + 1) - 6 = 3 + j + 1 by omega]
  refine (byteAt_append_right (l := headBytes s (s.lane l)) (by simp)).trans ?_
  simp

end

/-- Settles O25: LANE_INFO is its checks in order and then the bytes of Table 11-21, read off part by part. -/
theorem laneInfoReportsLane : Obligations.LaneInfoReportsLane := by
  unfold Obligations.LaneInfoReportsLane
  intro s p b ht
  have informs := laneInfo_eq s p b
  split
  next st failing => exact justAnswers_of_failing (exec_laneInfo s p b) ht informs failing
  next passing =>
    have low : byteAt b 0 < 32 := of_decide_eq_true (passes_of_none passing (st := .badArgument) (by simp))
    have answered := justAnswers_of_act (exec_laneInfo s p b) ht (informs.trans (checked_of_none passing _))
    rw [s.laneNo_byteAt low]
    generalize named : laneAt b 0 = l at *
    have number : l.val = byteAt b 0 := by rw [← named, laneAt_val low]
    have flag := laneInfoBytes_flag s l
    have names (k : Bank) : (k.names l).toNat = 1 ↔ ∃ i r, (k.entries.at i).release = some r ∧ r.lane.val = byteAt b 0 := by
      rw [← number]
      simp only [← Fin.ext_iff, ← Bank.names_iff]
      cases k.names l <;> simp
    have counter {j : Nat} {c : Half} (at0 : byteAt (s.lane l).counters.bytes j = (byteOf c.toNat).toNat)
        (at1 : byteAt (s.lane l).counters.bytes (j + 1) = (byteOf (c.toNat / 256)).toNat) :
        halfAt (laneInfoBytes s l) (13 + j) = c.toNat :=
      halfAt_of_half_bytes ((laneInfoBytes_counter s l j).trans at0) ((laneInfoBytes_counter s l (j + 1)).trans at1)
    refine ⟨_, answered, laneInfoBytes_length s l, (laneInfoBytes_lane s l).trans number, laneInfoBytes_state s l,
      ?_, ?_, ?_, ?_, fun t settled => ?_,
      laneInfoBytes_count s l, fun d rest m head held => ?_, counter (j := 0) rfl rfl, counter (j := 2) rfl rfl,
      counter (j := 4) rfl rfl, counter (j := 6) rfl rfl, counter (j := 8) rfl rfl, counter (j := 10) rfl rfl⟩
    · have settled := flag .p0
      simp only [Port.toNat, pow_zero, Nat.div_one] at settled
      rw [settled]
      show ((s.lane l).settings.isSome).toNat = _
      cases (s.lane l).settings <;> rfl
    · refine (flag .p1).trans ?_
      show ((s.lane l).queue != []).toNat = _
      cases (s.lane l).queue <;> rfl
    · rw [← names]
      exact iff_of_eq (congrArg (· = 1) (flag .p2))
    · unfold State.shadowEntry
      rw [← names]
      exact iff_of_eq (congrArg (· = 1) (flag .p3))
    · have field {j : Nat} (high : j < 6) : byteAt (laneInfoBytes s l) (3 + j) = byteAt (settingsBytes (some t)) j :=
        settled ▸ laneInfoBytes_settings s l high
      refine ⟨(field (j := 0) (by omega)).trans (portByte_toNat _), fun q => ?_,
        (field (j := 2) (by omega)).trans (byteOf_toNat _), (field (j := 3) (by omega)).trans ?_,
        (field (j := 4) (by omega)).trans ?_, (field (j := 5) (by omega)).trans (byteOf_toNat _)⟩
      · rw [field (j := 1) (by omega)]
        exact portSetByte_bit _ q
      · show t.policy.code.toNat = _
        cases t.policy <;> rfl
      · show t.reportMode.code.toNat = _
        cases t.reportMode <;> rfl
    · have field {j : Nat} (high : j < 3) : byteAt (laneInfoBytes s l) (10 + j) =
          byteAt (byteOf d.val :: le16 m.submitCycle.toNat) j := by
        rw [laneInfoBytes_head s l high, headBytes, head]
        simp only [held]
      exact ⟨(field (j := 0) (by omega)).trans ((byteOf_toNat _).trans (Nat.mod_eq_of_lt d.isLt)),
        halfAt_of_half_bytes (field (j := 1) (by omega)) (field (j := 2) (by omega))⟩

end Sys2Proof.Machine
end

section
/-! PROOFS. SEND (02_lanes.md, R29, R30; 01_message_store.md, 1.3, R10 to R13): the Lane Unit's checks, then the Message
Store's three, then the grant. -/

namespace Sys2Proof.Machine

open Sys2Proof

/-! ## Checks of two blocks, one after the other -/

theorem firstFailing_append (a b : List (Bool × Status)) :
    firstFailing (a ++ b) = (firstFailing a).or (firstFailing b) := by
  induction a with
  | nil => rfl
  | cons c a ih =>
    obtain ⟨pass, st⟩ := c
    cases pass <;> simp [firstFailing, ih]

theorem firstFailing_mem {checks : List (Bool × Status)} {st : Status} (h : firstFailing checks = some st) :
    st ∈ checks.map (·.2) := by
  induction checks with
  | nil => simp [firstFailing] at h
  | cons c rest ih =>
    obtain ⟨pass, st'⟩ := c
    cases pass with
    | false => simp_all [firstFailing]
    | true => exact List.mem_cons_of_mem _ (ih h)

/-! ## The Message Store's checks -/

section

variable (s : State) (p : Port) (k : Nat)

/-- R10: the Message Store's checks of a request of `p` for `k` buffers. -/
def State.storeChecks : List (Bool × Status) :=
  [((List.finRange 256).any fun d => (s.desc d).isNone, .noDescriptor),
    (decide (s.mst.held.get p + k ≤ (s.params p).ceiling), .quota),
    (decide (k + (Port.sum fun q => (s.params q).reserve - (s.mst.held.get q + if q = p then k else 0)) ≤
      s.mst.free.length), .pool)]

theorem State.unmetAfter_eq : s.unmetAfter p k =
    Port.sum fun q => (s.params q).reserve - (s.mst.held.get q + if q = p then k else 0) := by
  unfold State.unmetAfter unmet
  congr 1
  funext q
  by_cases own : q = p <;> simp [own]

theorem State.lowestFree_isSome :
    s.lowestFree.isSome = (List.finRange 256).any fun d => (s.desc d).isNone := by
  rw [Bool.eq_iff_iff, State.lowestFree, List.find?_isSome]
  simp

/-- R10: the checks in order, and the lowest FREE descriptor when all pass. -/
theorem State.allocCheck_eq : s.allocCheck p k =
    match firstFailing (s.storeChecks p k), s.lowestFree with
    | some st, _ => .error st
    | none, some d => .ok d
    | none, none => .error .noDescriptor := by
  unfold State.allocCheck State.storeChecks
  rw [← s.lowestFree_isSome, s.unmetAfter_eq, State.freeCount]
  cases s.lowestFree with
  | none => rfl
  | some d =>
    simp only [firstFailing, Option.isSome_some, if_true, decide_eq_true_eq]
    by_cases quota : s.mst.held.get p + k ≤ (s.params p).ceiling
    · rw [if_neg (not_lt.2 quota), if_pos quota]
      by_cases pool : k + (Port.sum fun q => (s.params q).reserve - (s.mst.held.get q + if q = p then k else 0)) ≤
          s.mst.free.length
      · rw [if_neg (not_lt.2 pool), if_pos pool]
      · rw [if_pos (not_le.1 pool), if_neg pool]
    · rw [if_pos (not_le.1 quota), if_neg quota]

/-- R10: a request that fails a check of the Message Store raises the counter of its refusal. -/
theorem State.allocate_of_failing {a : Allocation} {st : Status}
    (failing : firstFailing (s.storeChecks a.source a.buffers) = some st) :
    s.allocate a = refuse (s.modRefusals a.source (Refusals.count st)) st := by
  rw [State.allocate, State.allocCheck_eq, failing]

/-- R11, R30: what a grant leaves. -/
def State.submitted (d : DescId) (a : Allocation) : State := (s.grant d a).modLane a.lane (Lane.append d)

/-- R11, R30: a request that passes every check of the Message Store is granted the lowest FREE descriptor. -/
theorem State.allocate_of_passing {a : Allocation} {d : DescId}
    (passing : firstFailing (s.storeChecks a.source a.buffers) = none) (lowest : s.lowestFree = some d) :
    s.allocate a = reply (s.submitted d a) .ok
      (byteOf d.val :: le16 s.timer.cycle.toNat ++ [byteOf (((s.submitted d a).lane a.lane).queue.length)]) := by
  rw [State.allocate, State.allocCheck_eq, passing, lowest]
  rfl

theorem State.submitted_changes (d : DescId) (a : Allocation) : ChangesOnly s (s.submitted d a) [.mst, .lanes] :=
  ((s.grant_changes d a).mono (by simp)).comp ((State.modLane_changes _ _ _).mono (by simp))

/-- R11: the lowest FREE descriptor is the one below which none is FREE. -/
theorem State.lowestFree_eq_some (d : DescId) :
    s.lowestFree = some d ↔ s.desc d = none ∧ ∀ d', d' < d → s.desc d' ≠ none := by
  have find : s.lowestFree = Fin.find? fun d => (s.desc d).isNone := (Fin.find?_eq_find?_finRange ..).symm
  rw [find, Fin.find?_eq_some_iff]
  simp [Option.isNone_iff_eq_none, ← Option.isSome_iff_ne_none]

end

/-! ## SEND as checks and an allocation -/

section

variable (s : State) (p : Port)

/-- What a SEND of `p` on a lane with settings `t` hands to the Message Store. -/
def requestAt (b : List Byte) (t : LaneSettings) : Allocation :=
  { source := p, lane := laneAt b 0, label := BitVec.ofNat 16 (halfAt b 1), data := b.drop 3,
    reportMode := t.reportMode, dest := t.dest }

/-- The Lane Unit's checks of SEND. -/
def sendChecks (b : List Byte) : List (Bool × Status) :=
  [(decide (4 ≤ b.length ∧ b.length ≤ 259), .badLength), (s.inRun, .wrongState), (s.online p, .notMember),
    (decide (byteAt b 0 < 32), .badArgument), ((s.laneNo (byteAt b 0)).state != .closed, .laneState),
    ((s.laneNo (byteAt b 0)).owner == some p, .notOwner), ((s.laneNo (byteAt b 0)).state == .opened, .laneState),
    ((s.laneNo (byteAt b 0)).settings.any fun t => decide ((s.laneNo (byteAt b 0)).queue.length < t.depth), .laneFull)]

/-- R29, R30: SEND is the Lane Unit's checks in order and then the request to the Message Store. -/
theorem send_eq (b : List Byte) : send s p b = checked s (sendChecks s p b)
    ((s.laneNo (byteAt b 0)).settings.elim (refuse s .notOwner) fun t => s.allocate (requestAt p b t)) := by
  match b with
  | [] | [_] | [_, _] => exact (checked_badLength (by simp)).symm
  | lane :: l0 :: l1 :: data =>
    have named {l : LaneId} (h : l.val = lane.toNat) : s.laneNo (byteAt (lane :: l0 :: l1 :: data) 0) = s.lane l :=
      s.laneNo_of_val h
    refine refuse_else_eq_checked (by simp [← List.length_pos_iff_ne_nil]; omega) (laneChecks_eq_checked fun l h => ?_)
    rw [named h]
    refine refuse_else_eq_checked (by simp) ?_
    rw [Lane.owner]
    cases settings : (s.lane l).settings with
    | none => rfl
    | some t =>
      refine refuse_else_eq_checked (by simp) <| refuse_else_eq_checked (by simp) <|
        refuse_else_eq_checked (by simp) ?_
      rw [Option.elim_some, requestAt, laneAt_eq (b := lane :: l0 :: l1 :: data) (i := 0) h]
      rfl

theorem exec_send (b : List Byte) :
    exec (.send p b) s = command (.send p b) p s fun s => send s p b := rfl

/-- A lane whose fullness is checked has settings. -/
theorem State.settings_of_sendChecks {b : List Byte} (passing : firstFailing (sendChecks s p b) = none) :
    ∃ t, (s.laneNo (byteAt b 0)).settings = some t := by
  have notFull : ((s.laneNo (byteAt b 0)).settings.any fun t =>
      decide ((s.laneNo (byteAt b 0)).queue.length < t.depth)) = true :=
    passes_of_none passing (st := .laneFull) (by simp [sendChecks])
  cases settings : (s.laneNo (byteAt b 0)).settings with
  | none => rw [settings] at notFull; cases notFull
  | some t => exact ⟨t, rfl⟩

end

/-- R10, Table 1-5: the counter that each refusal of the Message Store raises. -/
theorem Refusals.count_eq {st : Status} (store : st = .noDescriptor ∨ st = .quota ∨ st = .pool) (r : Refusals) :
    r.count st = ⟨if st = .noDescriptor then counted r.descriptor 1 else r.descriptor,
      if st = .quota then counted r.quota 1 else r.quota, if st = .pool then counted r.pool 1 else r.pool⟩ := by
  rcases store with rfl | rfl | rfl <;> simp [Refusals.count, bump_eq]

/-- Settles O26: the checks that fail first at the Lane Unit change nothing; those of the store raise one counter. -/
theorem sendIsCheckedInOrder : Obligations.SendIsCheckedInOrder := by
  unfold Obligations.SendIsCheckedInOrder
  intro s p b st ht
  have sends := send_eq s p b
  dsimp only
  intro failing
  replace failing : firstFailing (sendChecks s p b ++ s.storeChecks p ((b.length - 3 + 63) / 64)) = some st := failing
  rw [firstFailing_append] at failing
  cases lane : firstFailing (sendChecks s p b) with
  | some st' =>
    rw [lane] at failing
    cases failing
    have known := firstFailing_mem lane
    rw [if_neg (by rintro (rfl | rfl | rfl) <;> simp [sendChecks] at known)]
    exact justAnswers_of_failing (exec_send s p b) ht sends lane
  | none =>
    rw [lane, Option.none_or] at failing
    have store : st = .noDescriptor ∨ st = .quota ∨ st = .pool := by
      simpa [State.storeChecks] using firstFailing_mem failing
    obtain ⟨t, settings⟩ := s.settings_of_sendChecks p lane
    have buffers : (requestAt p b t).buffers = (b.length - 3 + 63) / 64 := by
      rw [Allocation.buffers, requestAt, List.length_drop]
      rfl
    have acts : send s p b = refuse (s.modRefusals p (Refusals.count st)) st := by
      rw [sends, checked_of_none lane, settings, Option.elim_some]
      exact s.allocate_of_failing (by rw [buffers]; exact failing)
    rw [if_pos store]
    obtain ⟨runs, answers, changes⟩ :=
      answers_reply_of_act (exec_send s p b) ht acts (s.modRefusals_changes p _) (by simp)
    refine ⟨_, runs, answers, changes, rfl, fun q other => by simp [other], ?_⟩
    rw [← Refusals.count_eq store]
    simp

/-- A list of buffers that a grant takes from the head of the free list. -/
theorem Memory.load_store_take (free : List BufId) (k : Nat) (distinct : free.Nodup) (data : List Byte) (m : Memory)
    (canonical : Memory.wf m = true) (fits : data.length ≤ 64 * k) (enough : k ≤ free.length) :
    Memory.load (free.take k) data.length (Memory.store (free.take k) 0 data m) = data :=
  Memory.load_store _ (distinct.sublist (List.take_sublist k free)) data m canonical
    (by rwa [List.length_take, Nat.min_eq_left enough])

/-- Settles O27: where every check passes, SEND is the grant of the lowest FREE descriptor and its place in the queue. -/
theorem sendIsGranted : Obligations.SendIsGranted := by
  unfold Obligations.SendIsGranted
  intro s p b0 l0 l1 data l st d k ht low high run member named opened settings owner room free lowest quota pool
  have length : (b0 :: l0 :: l1 :: data).length = data.length + 3 := by simp
  have lane : s.laneNo (byteAt (b0 :: l0 :: l1 :: data) 0) = s.lane l := s.laneNo_of_val named
  have inTable : byteAt (b0 :: l0 :: l1 :: data) 0 < 32 := named.symm.trans_lt l.isLt
  have passing : firstFailing (sendChecks s p (b0 :: l0 :: l1 :: data)) = none := by
    rw [firstFailing_eq_none]
    simp [sendChecks, lane, length, run, member, inTable, opened, settings, Lane.owner, owner, room]
    omega
  have stored : firstFailing (s.storeChecks p k) = none := by
    rw [firstFailing_eq_none]
    simp only [State.storeChecks, List.mem_cons, List.not_mem_nil, or_false, forall_eq_or_imp, forall_eq,
      decide_eq_true_eq, List.any_eq_true]
    exact ⟨⟨d, by simp, by simp [free]⟩, quota, pool⟩
  let a : Allocation := ⟨p, l, BitVec.ofNat 16 (u16 l0 l1), data, st.reportMode, st.dest⟩
  have acts : send s p (b0 :: l0 :: l1 :: data) = reply (s.submitted d a) .ok
      (byteOf d.val :: le16 s.timer.cycle.toNat ++ [byteOf (((s.submitted d a).lane l).queue.length)]) := by
    have request : requestAt p (b0 :: l0 :: l1 :: data) st = a := by
      rw [requestAt, laneAt_eq (b := b0 :: l0 :: l1 :: data) (i := 0) named]
      rfl
    rw [send_eq, checked_of_none passing, lane, settings, Option.elim_some, request]
    exact s.allocate_of_passing stored ((s.lowestFree_eq_some d).2 ⟨free, lowest⟩)
  obtain ⟨runs, answers, changes⟩ := answers_reply_of_act (exec_send s p _) ht acts (s.submitted_changes d a) (by simp)
  have appended : (s.submitted d a).lane l = Lane.append d (s.lane l) := (State.lane_modLane _ l l _).trans (if_pos rfl)
  have enough : k ≤ s.mst.free.length := by omega
  have count : (s.mst.free.take k).length = k := by rw [List.length_take, Nat.min_eq_left enough]
  have label : (BitVec.ofNat 16 (u16 l0 l1)).toNat = l0.toNat + 256 * l1.toNat := by
    have h0 := l0.isLt
    have h1 := l1.isLt
    rw [BitVec.toNat_ofNat, u16, Nat.mod_eq_of_lt (by omega)]
  refine ⟨_, a.descriptor (s.mst.free.take k) s.timer.cycle, runs,
    ⟨_, answers, rfl, (byteOf_toNat _).trans (Nat.mod_eq_of_lt d.isLt), halfAt_of_half_bytes rfl rfl, ?_⟩, changes,
    Tbl.at_put s.mst.desc d d _ |>.trans (if_pos rfl), fun j other => Tbl.at_put _ d j _ |>.trans (if_neg other),
    rfl, rfl, rfl, label, rfl, rfl, count, rfl, rfl, rfl, rfl, rfl, fun q => ⟨PerPort.get_ofFn _ q, PerPort.get_fill _ q⟩,
    rfl, PerPort.get_modify _ p p _ |>.trans (if_pos rfl), fun q other => PerPort.get_modify _ p q _ |>.trans (if_neg other),
    rfl, State.modLane_onlyAt _ l _, ?_, fun distinct canonical => ?_, fun x outside => ?_⟩
  · refine (byteOf_toNat _).trans (congrArg (· % 256) ?_)
    rw [appended]
    simp [Lane.append]
  · refine appended.trans ?_
    rw [Lane.append, bump_eq]
  · exact Memory.load_store_take _ k distinct data _ canonical (by omega) enough
  · exact Memory.read_store_ne _ 0 data _ x fun j inside => by rw [Nat.zero_add]; exact outside j inside

end Sys2Proof.Machine
end

section
/-! PROOFS. The laws of the Membership Controller (10_membership_and_start_up.md, 10.2 and 10.3): the setup parameters stay
in their ranges, and the port states in accord with the exchange state. -/

namespace Sys2Proof.Machine

open Sys2Proof

/-- A command keeps a law that its block keeps and that does not read the links. -/
theorem ReadsOnly.exec_command {law : State → Prop} {parts : List Part} {s t : State} (reads : ReadsOnly law parts)
    (apart : Part.link ∉ parts) {i : Instr} {p : Port} {code : Byte} {b : List Byte}
    (h : i.command? = some (p, code, b)) (runs : exec i s = .next t) (holds : law s)
    (acts : s.takes i = true → law (actOf i s).1) : law t :=
  reads.command apart ((exec_eq_command h s).symm.trans runs) holds acts

/-! ## What the larger operations leave in the Membership Controller -/

section

variable (s : State) (p : Port)

theorem State.inRun_eq_true : s.inRun = true ↔ s.mbc.exchange = .run := by
  cases h : s.mbc.exchange <;> simp [State.inRun, h]

theorem State.online_eq_true : s.online p = true ↔ s.portState p = .online := by
  simp [State.online]

theorem State.online_eq_false : s.online p = false ↔ s.portState p ≠ .online := by
  simp [State.online]

/-- R157: the start of RUN leaves in the Membership Controller what part 1 does. -/
theorem State.startRun_mbc : s.startRun.mbc = s.mbc.start := by
  unfold State.startRun
  rw [(State.startTimer_changes _).mbc (by simp [slotParts]), (State.copyHeader_changes _).mbc (by simp),
    State.raiseAll_mbc]

theorem State.startRun_portState : s.startRun.portState p = if s.portState p = .ready then .online else s.portState p := by
  rw [State.portState, State.startRun_mbc]
  simp only [Mbc.start, PerPort.get_ofFn]
  rfl

/-- The state of a leave once parts 1 to 6 are done, before the return to SETUP. -/
def State.leaveParted : State :=
  (((((((s.setPort p .offline).raiseAll .memberChange (s.otherOnline p)).leavePlan p).leaveShadow p).leaveLanes
    p).leaveReceive p).leaveReports p)

theorem State.leave_eq : s.leave p = (s.leaveParted p).endRunIfEmpty := rfl

theorem State.leaveParted_mbc : (s.leaveParted p).mbc = { s.mbc with ports := s.mbc.ports.set p .offline } := by
  unfold State.leaveParted State.leaveReports
  rw [State.modRpt_mbc, (State.leaveReceive_changes _ p).mbc (by simp), (State.leaveLanes_changes _ p).mbc (by simp),
    (State.leaveShadow_changes _ p).mbc (by simp), (State.leavePlan_changes _ p).mbc (by simp), State.raiseAll_mbc,
    State.setPort_mbc]

theorem State.leaveParted_online (q : Port) : (s.leaveParted p).online q = (q != p && s.online q) := by
  rw [State.online, State.portState, s.leaveParted_mbc p]
  by_cases own : q = p <;> simp [State.online, State.portState, own]

/-- R160: a leave makes the port OFFLINE and changes no other port state and no parameter. -/
theorem State.leave_ports : (s.leave p).mbc.ports = s.mbc.ports.set p .offline ∧
    (s.leave p).mbc.params = s.mbc.params ∧ (s.leave p).mbc.deadline = s.mbc.deadline := by
  rw [State.leave_eq, State.endRunIfEmpty]
  split <;> simp [State.returnToSetup, State.clearBanks, State.leaveParted_mbc]

/-- R161: a leave that leaves a port ONLINE is its parts 1 to 6 alone. -/
theorem State.leave_of_others (others : ∃ q, q ≠ p ∧ s.online q = true) : s.leave p = s.leaveParted p := by
  obtain ⟨q, other, online⟩ := others
  rw [State.leave_eq, State.endRunIfEmpty, if_neg]
  intro none
  simpa [State.leaveParted_online, other, online] using List.all_eq_true.1 none q (Port.mem_all q)

/-- R161: a leave that leaves no port ONLINE returns the exchange to SETUP. -/
theorem State.leave_of_last (last : ∀ q, q ≠ p → s.online q = false) :
    s.leave p = (s.leaveParted p).returnToSetup := by
  rw [State.leave_eq, State.endRunIfEmpty, if_pos]
  refine List.all_eq_true.2 fun q _ => ?_
  rw [State.leaveParted_online]
  by_cases own : q = p
  · simp [own]
  · simp [last q own]

theorem State.others_or_last : (∃ q, q ≠ p ∧ s.online q = true) ∨ ∀ q, q ≠ p → s.online q = false := by
  by_cases others : ∃ q, q ≠ p ∧ s.online q = true
  · exact .inl others
  · exact .inr fun q other => Bool.eq_false_iff.2 fun online => others ⟨q, other, online⟩

theorem State.leave_portState (q : Port) :
    (s.leave p).portState q = if q = p then .offline else s.portState q := by
  simp [State.portState, (s.leave_ports p).1]

theorem State.resetPort_mbc : (s.resetPort p).mbc = (s.resetMembership p).mbc := by
  simp [State.resetPort, State.clearBlockCounters]

end

/-- R160: LEAVE is its checks in order and then the leave. -/
theorem leave_act_eq (s : State) (p : Port) (b : List Byte) : leave s p b =
    checked s [(decide (b = []), .badLength), (s.inRun, .wrongState), (s.online p, .notMember)]
      (reply (s.leave p) .ok []) := by
  match b with
  | _ :: _ => exact (checked_badLength (by simp)).symm
  | [] =>
    rw [checked_cons, leave]
    exact refuse_else_eq_checked (by simp) <| refuse_else_eq_checked (by simp) rfl

/-- R163: PORT_RESET is its length check and then its parts. -/
theorem portReset_eq (s : State) (p : Port) (b : List Byte) : portReset s p b =
    checked s [(decide (b = []), .badLength)]
      (reply (s.resetPort p) .ok [byteOf ((s.resetPort p).portState p).code]) := by
  match b with
  | _ :: _ => exact (checked_badLength (by simp)).symm
  | [] => rfl

/-! ## The setup parameters -/

section

variable {s t : State} {p : Port}

theorem paramsLawful_reads : ReadsOnly State.ParamsLawful [.mbc] := by
  intro s t same h
  have mbc : t.mbc = s.mbc := same .mbc (by simp)
  unfold State.ParamsLawful State.reserveSum State.params State.portState at *
  rwa [mbc]

/-- Port states may change while the parameters stand, as long as no port becomes DISABLED. -/
theorem State.ParamsLawful.of_ports (h : s.ParamsLawful) (params : t.mbc.params = s.mbc.params)
    (deadline : t.mbc.deadline = s.mbc.deadline) (enabled : ∀ q, t.portState q = .disabled → s.portState q = .disabled) :
    t.ParamsLawful := by
  obtain ⟨ports, sum, low, high⟩ := h
  unfold State.ParamsLawful State.reserveSum State.params
  rw [params, deadline]
  refine ⟨fun q => ?_, sum, low, high⟩
  obtain ⟨h1, h2, h3, h4, h5, h6, h7, h8, h9, h10, h11⟩ := ports q
  exact ⟨h1, h2, h3, h4, h5, h6, h7, h8, h9, h10, fun off => h11 (enabled q off)⟩

theorem State.ParamsLawful.clearReady (h : s.ParamsLawful) : s.clearReady.ParamsLawful := by
  obtain ⟨params, deadline, _⟩ := s.clearReady_sameSetup
  refine h.of_ports params deadline fun q off => ?_
  rw [s.clearReady_portState] at off
  split at off
  · cases off
  · exact off

/-- Table 10-3: the parameters of an enabled port are written within their ranges, the reserves together at most 512. -/
theorem State.ParamsLawful.writeParams (h : s.ParamsLawful) (enabled : s.portState p ≠ .disabled) {w : Params}
    (quota : w.reserve ≤ w.ceiling ∧ 1 ≤ w.ceiling ∧ w.ceiling ≤ 512)
    (receive : 4 ≤ w.depth ∧ w.depth ≤ 32 ∧ 1 ≤ w.watermark ∧ w.watermark ≤ w.depth)
    (lease : 1 ≤ w.leaseTime ∧ w.leaseTime ≤ 1000 ∧ w.redelivery ≤ 7) (sum : s.reserveSumWith p w.reserve ≤ 512) :
    (s.writeParams p w).1.ParamsLawful := by
  unfold State.writeParams
  split
  · exact h
  · refine State.ParamsLawful.clearReady ?_
    obtain ⟨ports, _, low, high⟩ := h
    refine ⟨fun q => ?_, ?_, low, high⟩
    · by_cases own : q = p
      · subst own
        have written : (s.setParams q w).params q = w := by simp [State.params]
        rw [written]
        exact ⟨quota.1, quota.2.1, quota.2.2, receive.1, receive.2.1, receive.2.2.1, receive.2.2.2, lease.1, lease.2.1,
          lease.2.2, fun off => absurd off enabled⟩
      · have kept : (s.setParams p w).params q = s.params q := by simp [State.params, own]
        rw [kept]
        exact ports q
    · have total : (s.setParams p w).reserveSum = s.reserveSumWith p w.reserve := by
        unfold State.reserveSum State.reserveSumWith
        congr 1
        funext q
        by_cases own : q = p <;> simp [State.params, own]
      rwa [total]

theorem State.reserveSumWith_self : s.reserveSumWith p (s.params p).reserve = s.reserveSum := by
  unfold State.reserveSum State.reserveSumWith
  congr 1
  funext q
  by_cases own : q = p <;> simp [own]

theorem State.ParamsLawful.writeDeadline (h : s.ParamsLawful) {n : Nat} (low : 1 ≤ n) (high : n ≤ 15) :
    (s.writeDeadline n).1.ParamsLawful := by
  unfold State.writeDeadline
  split
  · exact h
  · obtain ⟨ports, sum, _, _⟩ := h
    exact State.ParamsLawful.clearReady ⟨ports, sum, low, high⟩

/-- A command that the part takes is a command of an enabled port, with RESET_N high. -/
theorem State.live_of_takes {i : Instr} {code : Byte} {b : List Byte} (h : i.command? = some (p, code, b))
    (taken : s.takes i = true) : s.resetLow = false ∧ s.portState p ≠ .disabled := by
  simp only [State.takes, h, Bool.and_eq_true] at taken
  simpa [State.live] using taken.1

theorem State.ParamsLawful.setQuota (h : s.ParamsLawful) (enabled : s.portState p ≠ .disabled) (b : List Byte) :
    (setQuota s p b).1.ParamsLawful := by
  rw [setQuota_eq]
  refine checked_keeps h fun passing => ?_
  simp only [List.mem_cons, List.not_mem_nil, or_false, forall_eq_or_imp, forall_eq, decide_eq_true_eq] at passing
  obtain ⟨_, _, ⟨_, low, high⟩, order, sum⟩ := passing
  obtain ⟨_, _, _, h4, h5, h6, h7, h8, h9, h10, _⟩ := h.1 p
  exact h.writeParams enabled ⟨order, low, high⟩ ⟨h4, h5, h6, h7⟩ ⟨h8, h9, h10⟩ sum

theorem State.ParamsLawful.setRxq (h : s.ParamsLawful) (enabled : s.portState p ≠ .disabled) (b : List Byte) :
    (setRxq s p b).1.ParamsLawful := by
  rw [setRxq_eq]
  refine checked_keeps h fun passing => ?_
  simp only [List.mem_cons, List.not_mem_nil, or_false, forall_eq_or_imp, forall_eq, decide_eq_true_eq] at passing
  obtain ⟨_, _, ranges⟩ := passing
  obtain ⟨h1, h2, h3, _, _, _, _, h8, h9, h10, _⟩ := h.1 p
  exact h.writeParams enabled ⟨h1, h2, h3⟩ ranges ⟨h8, h9, h10⟩ (State.reserveSumWith_self.trans_le h.2.1)

theorem State.ParamsLawful.setLease (h : s.ParamsLawful) (enabled : s.portState p ≠ .disabled) (b : List Byte) :
    (setLease s p b).1.ParamsLawful := by
  rw [setLease_eq]
  refine checked_keeps h fun passing => ?_
  simp only [List.mem_cons, List.not_mem_nil, or_false, forall_eq_or_imp, forall_eq, decide_eq_true_eq] at passing
  obtain ⟨_, _, ranges⟩ := passing
  obtain ⟨h1, h2, h3, h4, h5, h6, h7, _⟩ := h.1 p
  exact h.writeParams enabled ⟨h1, h2, h3⟩ ⟨h4, h5, h6, h7⟩ ranges (State.reserveSumWith_self.trans_le h.2.1)

theorem State.ParamsLawful.setDeadline (h : s.ParamsLawful) (b : List Byte) : (setDeadline s b).1.ParamsLawful := by
  rw [setDeadline_eq]
  refine checked_keeps h fun passing => ?_
  simp only [List.mem_cons, List.not_mem_nil, or_false, forall_eq_or_imp, forall_eq, decide_eq_true_eq] at passing
  exact h.writeDeadline passing.2.2.1 passing.2.2.2

theorem State.ParamsLawful.writeFrame (h : s.ParamsLawful) (hd : Header) : (s.writeFrame hd).ParamsLawful := by
  refine h.of_ports (by rw [State.writeFrame_mbc]) (by rw [State.writeFrame_mbc]) fun q off => ?_
  unfold State.writeFrame State.frameInSetup at off
  split at off
  · exact off
  · split at off
    · exact off
    · rw [State.clearReady_portState] at off
      split at off
      · cases off
      · exact off

theorem State.ParamsLawful.setPort (h : s.ParamsLawful) {st : PortState} (enabled : st ≠ .disabled) :
    (s.setPort p st).ParamsLawful := by
  refine h.of_ports rfl rfl fun q off => ?_
  rw [State.portState_setPort] at off
  split at off
  · exact absurd off enabled
  · exact off

theorem State.ParamsLawful.startRun (h : s.ParamsLawful) : s.startRun.ParamsLawful := by
  refine h.of_ports (by rw [State.startRun_mbc]; rfl) (by rw [State.startRun_mbc]; rfl) fun q off => ?_
  rw [State.startRun_portState] at off
  split at off
  · cases off
  · exact off

theorem State.ParamsLawful.markReady (h : s.ParamsLawful) : (s.markReady p).ParamsLawful := by
  unfold State.markReady
  split
  · exact h.setPort (by simp)
  · exact h

theorem State.ParamsLawful.leave (h : s.ParamsLawful) : (s.leave p).ParamsLawful := by
  obtain ⟨_, params, deadline⟩ := s.leave_ports p
  refine h.of_ports params deadline fun q off => ?_
  rw [State.leave_portState] at off
  split at off
  · cases off
  · exact off

theorem State.ParamsLawful.resetMembership (h : s.ParamsLawful) : (s.resetMembership p).ParamsLawful := by
  unfold State.resetMembership
  split
  · exact h.leave
  · exact h.setPort (by simp)
  · exact h
  · exact h

theorem State.ParamsLawful.resetPort (h : s.ParamsLawful) : (s.resetPort p).ParamsLawful :=
  paramsLawful_reads (s.resetMembership p) _ (by simp [Part.same, State.resetPort_mbc]) h.resetMembership

theorem paramsLawful_reset (straps : PortSet) (h : t.mbc = Mbc.reset straps) : t.ParamsLawful := by
  have params : ∀ q, t.params q = Params.default := fun q => by simp [State.params, h, Mbc.reset]
  refine ⟨fun q => ?_, ?_, by simp [h, Mbc.reset], by simp [h, Mbc.reset]⟩
  · simp [params, Params.default]
  · simp [State.reserveSum, params, Params.default, Port.sum]

/-- Every command and happening keeps the setup parameters lawful. -/
theorem paramsLawful_exec {i : Instr} (touched : touches i [.mbc] = true) (h : s.ParamsLawful)
    (runs : exec i s = .next t) : t.ParamsLawful := by
  cases i with
  | resetNRelease straps =>
    cases runs
    exact paramsLawful_reset straps rfl
  | setQuota p b =>
    exact paramsLawful_reads.exec_command (by simp) rfl runs h fun taken => h.setQuota (State.live_of_takes rfl taken).2 b
  | setRxq p b =>
    exact paramsLawful_reads.exec_command (by simp) rfl runs h fun taken => h.setRxq (State.live_of_takes rfl taken).2 b
  | setLease p b =>
    exact paramsLawful_reads.exec_command (by simp) rfl runs h fun taken => h.setLease (State.live_of_takes rfl taken).2 b
  | setDeadline p b => exact paramsLawful_reads.exec_command (by simp) rfl runs h fun _ => h.setDeadline b
  | setFrame p b =>
    refine paramsLawful_reads.exec_command (by simp) rfl runs h fun _ => ?_
    rw [actOf, setFrame_eq]
    exact checked_keeps h fun _ => h.writeFrame _
  | ready p b =>
    refine paramsLawful_reads.exec_command (by simp) rfl runs h fun _ => ?_
    rw [actOf, ready_eq]
    refine checked_keeps h fun _ => ?_
    change State.ParamsLawful (if _ then _ else _)
    split
    · exact h.markReady.startRun
    · exact h.markReady
  | unready p b =>
    refine paramsLawful_reads.exec_command (by simp) rfl runs h fun taken => ?_
    rw [actOf, unready_eq]
    refine checked_keeps h fun _ => h.setPort ?_
    split
    · simp
    · exact (State.live_of_takes rfl taken).2
  | join p b =>
    refine paramsLawful_reads.exec_command (by simp) rfl runs h fun _ => ?_
    rw [actOf, join_eq]
    refine checked_keeps h fun _ => ?_
    exact paramsLawful_reads (s.setPort p .online) _ (by simp [Part.same, reply]) (h.setPort (by simp))
  | leave p b =>
    refine paramsLawful_reads.exec_command (by simp) rfl runs h fun _ => ?_
    rw [actOf, leave_act_eq]
    exact checked_keeps h fun _ => h.leave
  | portReset p b =>
    refine paramsLawful_reads.exec_command (by simp) rfl runs h fun _ => ?_
    rw [actOf, portReset_eq]
    exact checked_keeps h fun _ => h.resetPort
  | _ => exact (Bool.false_ne_true touched).elim

end

/-! ## The exchange state and the port states -/

section

variable {s t : State} {p : Port}

theorem membershipLawful_reads : ReadsOnly State.MembershipLawful [.mbc] := by
  intro s t same h
  have mbc : t.mbc = s.mbc := same .mbc (by simp)
  unfold State.MembershipLawful State.inRun State.online State.portState at *
  rwa [mbc]

theorem membershipLawful_of_setup (setup : s.inRun = false) (none : ∀ q, s.online q = false) : s.MembershipLawful :=
  ⟨fun _ => none, fun run => by simp [setup] at run⟩

theorem membershipLawful_of_run (run : s.inRun = true) (member : s.online p = true) (none : ∀ q, s.portState q ≠ .ready) :
    s.MembershipLawful :=
  ⟨fun setup => by simp [run] at setup, fun _ => ⟨⟨p, member⟩, none⟩⟩

theorem State.clearReady_online (q : Port) : s.clearReady.online q = s.online q := by
  rw [State.online, s.clearReady_portState]
  by_cases marked : s.portState q = .ready <;> simp [State.online, marked]

theorem State.MembershipLawful.clearReady (h : s.MembershipLawful) : s.clearReady.MembershipLawful := by
  unfold State.MembershipLawful
  simp only [State.clearReady_inRun, State.clearReady_online]
  refine ⟨h.1, fun run => ⟨(h.2 run).1, fun q => ?_⟩⟩
  rw [s.clearReady_portState, if_neg ((h.2 run).2 q)]
  exact (h.2 run).2 q

theorem State.MembershipLawful.writeParams (h : s.MembershipLawful) (w : Params) : (s.writeParams p w).1.MembershipLawful := by
  unfold State.writeParams
  split
  · exact h
  · have written : (s.setParams p w).MembershipLawful := h
    exact written.clearReady

theorem State.MembershipLawful.writeDeadline (h : s.MembershipLawful) (n : Nat) : (s.writeDeadline n).1.MembershipLawful := by
  unfold State.writeDeadline
  split
  · exact h
  · have written : State.MembershipLawful { s with mbc := { s.mbc with deadline := n } } := h
    exact written.clearReady

theorem State.MembershipLawful.writeFrame (h : s.MembershipLawful) (hd : Header) : (s.writeFrame hd).MembershipLawful := by
  have written : (s.setShadowHeader hd).MembershipLawful := h
  unfold State.writeFrame State.frameInSetup
  split
  · exact written
  · split
    · exact written
    · exact written.clearReady

/-- In SETUP a port may take any state but ONLINE. -/
theorem State.MembershipLawful.setPort_of_setup (h : s.MembershipLawful) (setup : s.inRun = false) {st : PortState}
    (off : st ≠ .online) : (s.setPort p st).MembershipLawful := by
  refine membershipLawful_of_setup setup fun q => ?_
  rw [State.online_eq_false, State.portState_setPort]
  split
  · exact off
  · exact (s.online_eq_false q).1 (h.1 setup q)

/-- R157: the start of RUN takes the READY ports into RUN, and leaves none READY. -/
theorem State.membershipLawful_startRun (marked : s.portState p = .ready) : s.startRun.MembershipLawful := by
  refine membershipLawful_of_run (p := p) ?_ ?_ fun q => ?_
  · rw [State.inRun_eq_true, State.startRun_mbc]
    rfl
  · rw [State.online_eq_true, State.startRun_portState, if_pos marked]
  · rw [State.startRun_portState]
    split
    · simp
    · assumption

theorem State.MembershipLawful.join (h : s.MembershipLawful) (run : s.inRun = true) :
    (s.setPort p .online).MembershipLawful := by
  refine membershipLawful_of_run (p := p) run (by simp [State.online_eq_true]) fun q => ?_
  rw [State.portState_setPort]
  split
  · simp
  · exact (h.2 run).2 q

/-- R160, R161: the leave of a port leaves another ONLINE, or returns the exchange to SETUP. -/
theorem State.MembershipLawful.leave (h : s.MembershipLawful) (run : s.inRun = true) : (s.leave p).MembershipLawful := by
  rcases s.others_or_last p with others | last
  · obtain ⟨q, other, member⟩ := others
    refine membershipLawful_of_run (p := q) ?_ ?_ fun q => ?_
    · rw [s.leave_of_others p ⟨q, other, member⟩, State.inRun_eq_true, State.leaveParted_mbc]
      exact s.inRun_eq_true.1 run
    · rw [State.online_eq_true, State.leave_portState, if_neg other]
      exact (s.online_eq_true q).1 member
    · rw [State.leave_portState]
      split
      · simp
      · exact (h.2 run).2 q
  · refine membershipLawful_of_setup ?_ fun q => ?_
    · rw [s.leave_of_last p last]
      rfl
    · rw [State.online_eq_false, State.leave_portState]
      split
      · simp
      next other => exact (s.online_eq_false q).1 (last q other)

theorem State.MembershipLawful.resetMembership (h : s.MembershipLawful) : (s.resetMembership p).MembershipLawful := by
  have run_or_setup : s.inRun = true ∨ s.inRun = false := by cases s.inRun <;> simp
  unfold State.resetMembership
  split
  next member =>
    rcases run_or_setup with run | setup
    · exact h.leave run
    · exact absurd member ((s.online_eq_false p).1 (h.1 setup p))
  next marked =>
    rcases run_or_setup with run | setup
    · exact absurd marked ((h.2 run).2 p)
    · exact h.setPort_of_setup setup (by simp)
  · exact h
  · exact h

theorem State.MembershipLawful.resetPort (h : s.MembershipLawful) : (s.resetPort p).MembershipLawful :=
  membershipLawful_reads (s.resetMembership p) _ (by simp [Part.same, State.resetPort_mbc]) h.resetMembership

theorem membershipLawful_reset (straps : PortSet) (h : t.mbc = Mbc.reset straps) : t.MembershipLawful := by
  refine membershipLawful_of_setup (by simp [State.inRun, h, Mbc.reset]) fun q => ?_
  cases strap : straps.get q <;> simp [State.online, State.portState, h, Mbc.reset, strap]

theorem State.MembershipLawful.ready (h : s.MembershipLawful) (b : List Byte) : (ready s p b).1.MembershipLawful := by
  rw [ready_eq]
  refine checked_keeps h fun passing => ?_
  have setup : s.inRun = false := by simpa using passing _ (List.mem_cons_of_mem _ List.mem_cons_self)
  change State.MembershipLawful (if _ then _ else _)
  split
  next last =>
    refine State.membershipLawful_startRun (p := p) ?_
    rw [State.markReady, if_pos last.1, State.portState_setPort, if_pos rfl]
  · unfold State.markReady
    split
    · exact h.setPort_of_setup setup (by simp)
    · exact h

theorem State.MembershipLawful.unready (h : s.MembershipLawful) (b : List Byte) : (unready s p b).1.MembershipLawful := by
  rw [unready_eq]
  refine checked_keeps h fun passing => ?_
  have setup : s.inRun = false := by simpa using passing _ (List.mem_cons_of_mem _ List.mem_cons_self)
  refine h.setPort_of_setup setup ?_
  split
  · simp
  · exact (s.online_eq_false p).1 (h.1 setup p)

/-- Every command and happening keeps the exchange state and the port states in accord. -/
theorem membershipLawful_exec {i : Instr} (touched : touches i [.mbc] = true) (h : s.MembershipLawful)
    (runs : exec i s = .next t) : t.MembershipLawful := by
  cases i with
  | resetNRelease straps =>
    cases runs
    exact membershipLawful_reset straps rfl
  | setQuota p b =>
    refine membershipLawful_reads.exec_command (by simp) rfl runs h fun _ => ?_
    rw [actOf, setQuota_eq]
    exact checked_keeps h fun _ => h.writeParams _
  | setRxq p b =>
    refine membershipLawful_reads.exec_command (by simp) rfl runs h fun _ => ?_
    rw [actOf, setRxq_eq]
    exact checked_keeps h fun _ => h.writeParams _
  | setLease p b =>
    refine membershipLawful_reads.exec_command (by simp) rfl runs h fun _ => ?_
    rw [actOf, setLease_eq]
    exact checked_keeps h fun _ => h.writeParams _
  | setDeadline p b =>
    refine membershipLawful_reads.exec_command (by simp) rfl runs h fun _ => ?_
    rw [actOf, setDeadline_eq]
    exact checked_keeps h fun _ => h.writeDeadline _
  | setFrame p b =>
    refine membershipLawful_reads.exec_command (by simp) rfl runs h fun _ => ?_
    rw [actOf, setFrame_eq]
    exact checked_keeps h fun _ => h.writeFrame _
  | ready p b => exact membershipLawful_reads.exec_command (by simp) rfl runs h fun _ => h.ready b
  | unready p b => exact membershipLawful_reads.exec_command (by simp) rfl runs h fun _ => h.unready b
  | join p b =>
    refine membershipLawful_reads.exec_command (by simp) rfl runs h fun _ => ?_
    rw [actOf, join_eq]
    refine checked_keeps h fun passing => ?_
    have run : s.inRun = true := passing _ (List.mem_cons_of_mem _ List.mem_cons_self)
    exact membershipLawful_reads (s.setPort p .online) _ (by simp [Part.same, reply]) (h.join run)
  | leave p b =>
    refine membershipLawful_reads.exec_command (by simp) rfl runs h fun _ => ?_
    rw [actOf, leave_act_eq]
    refine checked_keeps h fun passing => h.leave ?_
    exact passing _ (List.mem_cons_of_mem _ List.mem_cons_self)
  | portReset p b =>
    refine membershipLawful_reads.exec_command (by simp) rfl runs h fun _ => ?_
    rw [actOf, portReset_eq]
    exact checked_keeps h fun _ => h.resetPort
  | _ => exact (Bool.false_ne_true touched).elim

end

/-- Settles O49: neither law reads more than the Membership Controller, and each command that changes it keeps both. -/
theorem stepKeepsMembershipLawful : Obligations.StepKeepsMembershipLawful := by
  unfold Obligations.StepKeepsMembershipLawful
  refine ⟨fun s t h runs => ?_, fun s t h runs => ?_⟩
  · exact paramsLawful_reads.step (by simp) (by simp) (fun _ _ h => h) (fun i s t => paramsLawful_exec) h runs
  · exact membershipLawful_reads.step (by simp) (by simp) (fun _ _ h => h) (fun i s t => membershipLawful_exec) h runs

end Sys2Proof.Machine
end

section
/-! PROOFS. The encodings of Chapter 11 (11_host_link_protocol.md, 11.6, 11.8, 11.9, R178): every code and field is read
back to what it encodes, and a response frame determines its response. -/

namespace Sys2Proof.Machine

open Sys2Proof

/-! ## Command codes -/

/-- One row of the table: a code is read as the row's command, or as the rows below read it. -/
theorem command_of_row {p : Port} {code row : Byte} {b : List Byte} {i j : Instr} {below : Option Instr}
    (named : code = row → j.command? = some (p, code, b)) (rest : below = some i → i.command? = some (p, code, b)) :
    (if code = row then some j else below) = some i → i.command? = some (p, code, b) := by
  split
  next coded =>
    intro h
    cases h
    exact named coded
  · exact rest

/-- A code read as a command is the code of that command (Table 11-14). -/
theorem commandOf_eq_some {p : Port} {code : Byte} {b : List Byte} {i : Instr} :
    commandOf p code b = some i ↔ i.command? = some (p, code, b) := by
  constructor
  · unfold commandOf
    repeat refine command_of_row (by rintro rfl; rfl) ?_
    exact nofun
  · intro h
    cases i <;> simp only [Instr.command?, Option.some.injEq, Prod.mk.injEq, reduceCtorEq] at h <;>
      (obtain ⟨rfl, rfl, rfl⟩ := h; rfl)

/-- The 36 codes of Table 11-14. -/
def tableCodes : List Nat :=
  [0x01, 0x02, 0x03, 0x04] ++ [0x10, 0x11, 0x12, 0x13, 0x14, 0x18, 0x19, 0x1A, 0x1B] ++
    [0x20, 0x21, 0x22, 0x23, 0x30, 0x31, 0x32, 0x33, 0x34, 0x35] ++ [0x40, 0x41, 0x42, 0x43, 0x44, 0x45] ++
    [0x48, 0x49, 0x4A, 0x4B, 0x50, 0x51, 0x52]

theorem commandOf_isSome_iff (p : Port) (code : Byte) (b : List Byte) :
    (commandOf p code b).isSome = true ↔ code.toNat ∈ tableCodes := by
  constructor
  · intro named
    obtain ⟨i, h⟩ := Option.isSome_iff_exists.1 named
    have coded := commandOf_eq_some.1 h
    cases i <;> simp only [Instr.command?, Option.some.injEq, Prod.mk.injEq, reduceCtorEq] at coded <;>
      (obtain ⟨-, rfl, -⟩ := coded; decide)
  · intro listed
    have named : ∀ n ∈ tableCodes, (commandOf p (BitVec.ofNat 8 n) b).isSome = true := by
      intro n hn
      simp only [tableCodes, List.cons_append, List.nil_append] at hn
      fin_cases hn <;> rfl
    simpa using named _ listed

/-! ## Field encodings -/

theorem handleByte_toNat (n : SlotId) (g : BitVec 4) : (handleByte n g).toNat = 16 * n.val + g.toNat := by
  have hn := n.isLt
  have hg := g.isLt
  rw [handleByte, byteOf_toNat, Nat.mod_eq_of_lt (by omega)]

theorem handleOf_eq_some {x : Byte} {n : SlotId} {g : BitVec 4} : handleOf x = some (n, g) ↔ x = handleByte n g := by
  have hn := n.isLt
  have hg := g.isLt
  have hx := x.isLt
  rw [← BitVec.toNat_inj, handleByte_toNat, handleOf]
  split
  next inTable =>
    rw [Option.some_inj, Prod.mk.injEq, Fin.ext_iff, ← BitVec.toNat_inj, BitVec.toNat_ofNat]
    dsimp only
    omega
  next outside =>
    simp only [reduceCtorEq, false_iff]
    omega

theorem handleOf_eq_none (x : Byte) : handleOf x = none ↔ 64 ≤ x.toNat := by
  rw [handleOf]
  split
  · simp only [reduceCtorEq, false_iff]
    omega
  · simp only [true_iff]
    omega

theorem portsOf_portSetByte (t : PortSet) : portsOf (portSetByte t) = t := by
  refine PerPort.ext_get fun q => ?_
  rw [portsOf, PerPort.get_ofFn, portSetByte_bit]
  cases t.get q <;> rfl

theorem portSetByte_lt (t : PortSet) : (portSetByte t).toNat ≤ 15 := by
  obtain ⟨a, b, c, d⟩ := t
  cases a <;> cases b <;> cases c <;> cases d <;> decide

theorem portSetByte_portsOf (x : Byte) (h : x.toNat ≤ 15) : portSetByte (portsOf x) = x := by
  obtain ⟨n, hn, rfl⟩ : ∃ n ≤ 15, x = BitVec.ofNat 8 n := ⟨x.toNat, h, by simp⟩
  interval_cases n <;> decide

theorem portSetOf_eq_some {x : Byte} {t : PortSet} : portSetOf x = some t ↔ x = portSetByte t := by
  rw [portSetOf_eq]
  split
  next low =>
    rw [Option.some_inj]
    constructor
    · rintro rfl
      exact (portSetByte_portsOf x low).symm
    · rintro rfl
      exact portsOf_portSetByte t
  next high =>
    simp only [reduceCtorEq, false_iff]
    rintro rfl
    exact high (portSetByte_lt t)

theorem portSetOf_eq_none (x : Byte) : portSetOf x = none ↔ 16 ≤ x.toNat := by
  rw [portSetOf_eq]
  split
  · simp only [reduceCtorEq, false_iff]
    omega
  · simp only [true_iff]
    omega

theorem portOf_portByte (p : Port) : portOf (portByte p) = some p := by cases p <;> rfl

theorem portOf_eq_some {x : Byte} {p : Port} : portOf x = some p ↔ x = portByte p := by
  constructor
  · intro h
    unfold portOf at h
    repeat' split at h
    all_goals first | (cases h; subst_vars; rfl) | cases h
  · rintro rfl
    exact portOf_portByte p

theorem portOf_eq_none (x : Byte) : portOf x = none ↔ 4 ≤ x.toNat := by
  constructor
  · intro h
    by_contra low
    obtain ⟨n, hn, rfl⟩ : ∃ n < 4, x = BitVec.ofNat 8 n := ⟨x.toNat, by omega, by simp⟩
    interval_cases n <;> simp [portOf] at h
  · intro high
    cases h : portOf x with
    | none => rfl
    | some p =>
      rw [portOf_eq_some.1 h, portByte_toNat] at high
      cases p <;> simp [Port.toNat] at high

/-- The high half of a byte is clear exactly when its value is below 16. -/
theorem highNibble_eq_zero : ∀ x : Byte, x &&& 0xF0 = 0 ↔ x.toNat < 16 := by decide

theorem eventSetOf_eq (lo hi : Byte) :
    eventSetOf lo hi = if hi.toNat < 16 then some (BitVec.ofNat 12 (u16 lo hi)) else none := by
  simp only [eventSetOf, highNibble_eq_zero]

theorem eventSetOf_eq_some {lo hi : Byte} {k : EventSet} : eventSetOf lo hi = some k ↔ [lo, hi] = eventSetBytes k := by
  have hl := lo.isLt
  have hh := hi.isLt
  have hk := k.isLt
  have bytes : [lo, hi] = eventSetBytes k ↔ lo.toNat = k.toNat % 256 ∧ hi.toNat = k.toNat / 256 % 256 := by
    rw [eventSetBytes, le16, List.cons_eq_cons, List.cons_eq_cons, ← BitVec.toNat_inj, ← BitVec.toNat_inj,
      byteOf_toNat, byteOf_toNat]
    simp
  rw [bytes, eventSetOf_eq, u16]
  split
  next low =>
    rw [Option.some_inj, ← BitVec.toNat_inj, BitVec.toNat_ofNat]
    omega
  next high =>
    simp only [reduceCtorEq, false_iff]
    omega

theorem eventSetOf_eq_none (lo hi : Byte) : eventSetOf lo hi = none ↔ 16 ≤ hi.toNat := by
  rw [eventSetOf_eq]
  split
  · simp only [reduceCtorEq, false_iff]
    omega
  · simp only [true_iff]
    omega

theorem laneOf_eq_some {x : Byte} {l : LaneId} : laneOf x = some l ↔ x = byteOf l.val := by
  have hl := l.isLt
  have hx := x.isLt
  rw [← BitVec.toNat_inj, byteOf_toNat, laneOf]
  split
  next inTable =>
    rw [Option.some_inj, Fin.ext_iff]
    dsimp only
    omega
  next outside =>
    simp only [reduceCtorEq, false_iff]
    omega

theorem laneOf_eq_none_iff (x : Byte) : laneOf x = none ↔ 32 ≤ x.toNat := by
  rw [laneOf]
  split
  · simp only [reduceCtorEq, false_iff]
    omega
  · simp only [true_iff]
    omega

theorem policyOf_eq_some {x : Byte} {v : Policy} : policyOf x = some v ↔ x = v.code := by
  constructor
  · intro h
    unfold policyOf at h
    repeat' split at h
    all_goals first | (cases h; subst_vars; rfl) | cases h
  · rintro rfl
    cases v <;> rfl

theorem reportModeOf_eq_some {x : Byte} {v : ReportMode} : reportModeOf x = some v ↔ x = v.code := by
  constructor
  · intro h
    unfold reportModeOf at h
    repeat' split at h
    all_goals first | (cases h; subst_vars; rfl) | cases h
  · rintro rfl
    cases v <;> rfl

/-- Settles O12: each encoding is read back, and the codes name the 36 commands. -/
theorem codesRoundTrip : Obligations.CodesRoundTrip := by
  unfold Obligations.CodesRoundTrip
  refine ⟨fun _ _ _ _ => commandOf_eq_some, fun p b => ?_, commandOf_isSome_iff, fun _ _ _ => handleOf_eq_some,
    handleOf_eq_none, fun _ _ => portSetOf_eq_some, portSetOf_eq_none, fun _ _ => portOf_eq_some, portOf_eq_none,
    fun _ _ _ => eventSetOf_eq_some, eventSetOf_eq_none, fun _ _ => laneOf_eq_some, laneOf_eq_none_iff,
    fun _ _ => policyOf_eq_some, fun _ _ => reportModeOf_eq_some⟩
  repeat' constructor

/-! ## Response frames -/

theorem Status.code_inj {a b : Status} (h : a.code = b.code) : a = b := by
  cases a <;> cases b <;> first | rfl | exact absurd h (by decide)

/-- Table 11-13: each flag of a response is its own bit of the flags byte. -/
theorem Response.flags_bits (r : Response) :
    r.flags.getLsbD 0 = r.replay ∧ r.flags.getLsbD 1 = r.attention ∧ r.flags.getLsbD 2 = r.run := by
  unfold Response.flags
  cases r.replay <;> cases r.attention <;> cases r.run <;> decide

/-- Table 11-13: the bytes a response's CRC covers determine the response. -/
theorem Response.body_inj {r r' : Response} (h : r.body = r'.body) : r = r' := by
  simp only [Response.body, List.cons.injEq] at h
  obtain ⟨status, tag, flags, rest⟩ := h
  have payload : r.payload = r'.payload := (List.append_inj rest rfl).2
  obtain ⟨replay, attention, run⟩ := r.flags_bits
  obtain ⟨replay', attention', run'⟩ := r'.flags_bits
  rw [flags] at replay attention run
  cases r
  cases r'
  rw [Response.mk.injEq]
  exact ⟨Status.code_inj status, tag, replay.symm.trans replay', attention.symm.trans attention', run.symm.trans run',
    payload⟩

/-- Settles O13: the CRC has a fixed length, so equal frames have equal bodies. -/
theorem responseFrameDeterminesResponse : Obligations.ResponseFrameDeterminesResponse := by
  unfold Obligations.ResponseFrameDeterminesResponse
  intro r r' h
  rw [Response.bytes, Response.bytes, List.cons.injEq] at h
  exact Response.body_inj (List.append_inj' h.2 rfl).1

end Sys2Proof.Machine
end

section
/-! PROOFS. Message ends and the settling of deliveries (08_delivery_reports.md, R127 to R131; 01_message_store.md, R6, R15;
07_receive_queues_and_leases.md, R119). -/

namespace Sys2Proof.Machine

open Sys2Proof

/-! ## Posting a report -/

section

variable (s : State) (p : Port) (r : Report)

theorem raisedTo_one (k : EventKind) : RaisedTo s (s.raise k p) k [p] := fun q => by
  by_cases own : q = p <;> simp [own]

theorem RaisedTo.refl (k : EventKind) : RaisedTo s s k [] := fun q => by simp

/-- R131: a record is appended to a queue that has room for it, and REPORT_READY raised when the queue was empty. -/
theorem State.appendReport_of_room (room : (s.rpt.get p).queue.length < 16) :
    (s.appendReport p r).rpt.get p = { s.rpt.get p with queue := (s.rpt.get p).queue ++ [r] } ∧
      RaisedTo s (s.appendReport p r) .reportReady (if (s.rpt.get p).queue = [] then [p] else []) := by
  unfold State.appendReport
  dsimp only
  rw [if_pos (show _ < reportCapacity from room)]
  by_cases empty : (s.rpt.get p).queue = []
  · rw [if_pos (by simp [empty]), if_pos empty]
    exact ⟨by simp, raisedTo_one (s.modRpt p _) p .reportReady⟩
  · rw [if_neg (by simpa using empty), if_neg empty]
    exact ⟨by simp, RaisedTo.refl (s.modRpt p _) .reportReady⟩

/-- R131: a record is lost to a full queue, counted and told. -/
theorem State.appendReport_of_full (full : 16 ≤ (s.rpt.get p).queue.length) :
    (s.appendReport p r).rpt.get p = { s.rpt.get p with lost := counted (s.rpt.get p).lost 1 } ∧
      RaisedTo s (s.appendReport p r) .reportLost [p] := by
  unfold State.appendReport
  dsimp only
  rw [if_neg (by rw [reportCapacity]; omega)]
  exact ⟨by simp [bump_eq], raisedTo_one (s.modRpt p _) p .reportLost⟩

theorem State.appendReport_onlyAt : OnlyAt p s.rpt (s.appendReport p r).rpt := by
  intro q other
  unfold State.appendReport
  dsimp only
  repeat' split
  all_goals simp [other]

end

theorem ReportMode.posts_iff (mode : ReportMode) (o : MsgOutcome) :
    mode.posts o = true ↔ mode = .all ∨ (mode = .failures ∧ o ≠ .complete) := by
  cases mode <;> simp [ReportMode.posts]

/-! ## Message ends -/

section

variable {s : State} {d : DescId} {m : Desc}

/-- R15, R127 to R131: a message end posts the record formed from the descriptor and frees it. -/
theorem State.messageEnded (h : s.desc d = some m) (e : Ending) :
    MessageEnded s (s.endMessage d e) d m (outcomeOf m e) := by
  have posted : (m.reportMode.posts (outcomeOf m e) && s.online m.source) = true ↔
      (m.reportMode = .all ∨ (m.reportMode = .failures ∧ outcomeOf m e ≠ .complete)) ∧ s.online m.source = true := by
    rw [Bool.and_eq_true, ReportMode.posts_iff]
  have ended : s.endMessage d e = (s.post m (reportOf d m e)).freeDesc d m := by rw [State.endMessage, h]
  have post : s.post m (reportOf d m e) =
      if m.reportMode.posts (outcomeOf m e) && s.online m.source then s.appendReport m.source (reportOf d m e) else s := rfl
  refine ⟨by simp, fun j other => ?_, ?_, ?_, fun q other => ?_, ?_, ?_, fun q other => ?_, fun off => ?_,
    fun on room => ?_, fun on full => ?_⟩
  · rw [State.endMessage_mst s d e m h, Tbl.at_put, if_neg other]
  · rw [State.endMessage_mst s d e m h]
  · rw [State.endMessage_mst s d e m h, PerPort.get_modify, if_pos rfl]
  · rw [State.endMessage_mst s d e m h, PerPort.get_modify, if_neg other]
  · rw [State.endMessage_mst s d e m h]
  · rw [State.endMessage_mst s d e m h]
  · rw [ended, State.freeDesc_rpt, post]
    split
    · exact s.appendReport_onlyAt m.source _ q other
    · rfl
  · rw [ended, State.freeDesc_rpt, State.freeDesc_att, post, if_neg (mt posted.1 off)]
    exact ⟨rfl, rfl⟩
  · rw [ended, post, if_pos (posted.2 on)]
    exact s.appendReport_of_room m.source (reportOf d m e) room
  · rw [ended, post, if_pos (posted.2 on)]
    exact s.appendReport_of_full m.source (reportOf d m e) full

/-- R128: of the destinations all are DELIVERED exactly when as many are. -/
theorem outcomeOf_eq (m : Desc) (e : Ending) :
    let dests := Port.all.filter fun q => m.delivery.get q != .notDest
    let done := dests.filter fun q => m.delivery.get q == .delivered
    outcomeOf m e = match e with
      | .stale => .stale
      | .purged => .purged
      | .released => if done = [] then .failed else if done = dests then .complete else .partly := by
  cases e with
  | stale => rfl
  | purged => rfl
  | released =>
    simp only [outcomeOf, List.length_eq_zero_iff, List.length_filter_eq_length_iff, List.filter_eq_self]
    rfl

end

/-- Settles O33: a message end with the outcome of R128. -/
theorem messageEndReportsAndFrees : Obligations.MessageEndReportsAndFrees := by
  unfold Obligations.MessageEndReportsAndFrees
  intro s d m e h dests done o
  have outcome : outcomeOf m e = o := outcomeOf_eq m e
  rw [← outcome]
  exact ⟨State.messageEnded h e, s.endMessage_changes d e⟩

/-! ## Settling a delivery -/

section

variable {s : State} {d : DescId} {m : Desc} {p : Port} {v : Delivery}

/-- A message end is judged by the store but for the descriptor itself, the reports and the attention states before it. -/
theorem MessageEnded.of_setDesc {t : State} {m' : Desc} {o : MsgOutcome}
    (h : MessageEnded (s.setDesc d (some m')) t d m' o) : MessageEnded s t d m' o := by
  obtain ⟨freed, others, rest⟩ := h
  exact ⟨freed, fun j other => by simpa [other] using others j other, rest⟩

/-- R6, R119: settling a delivery lowers the outstanding count, and ends the message when it comes to 0. -/
theorem State.settled (h : s.desc d = some m) (p : Port) (v : Delivery) : Settled s (s.settle d p v) p d m v := by
  unfold State.settle
  rw [h]
  dsimp only
  refine ⟨fun last => ?_, fun more => ?_⟩
  · rw [if_pos (by omega)]
    exact (State.messageEnded (by simp) .released).of_setDesc
  · rw [if_neg (by omega)]
    exact ⟨rfl, rfl, rfl⟩

end

end Sys2Proof.Machine
end

section
/-! PROOFS. Leases: FETCH, REREAD, ACK, RETURN and LEASE_EXPIRY (07_receive_queues_and_leases.md, R110 to R119). Each command
is a list of checks made in order before one change of a lease slot. -/

namespace Sys2Proof.Machine

open Sys2Proof

/-! ## The content of a leased message -/

section

variable (s : State) (p : Port) (n : SlotId) (d : DescId) (m : Desc)

/-- Table 11-18: the content bytes carry the message. -/
theorem isContent_contentBytes : IsContent (contentBytes s p n d m) s p n d m := by
  have lane : m.lane.val % 256 = m.lane.val := Nat.mod_eq_of_lt (m.lane.isLt.trans (by decide))
  refine ⟨handleByte_toNat _ _, (byteOf_toNat _).trans (Nat.mod_eq_of_lt d.isLt), portByte_toNat _,
    (byteOf_toNat _).trans lane, halfAt_of_half_bytes rfl rfl, fun st stamped => ?_, byteOf_toNat _, byteOf_toNat _,
    halfAt_of_bytes rfl rfl, rfl⟩
  rw [contentBytes, stamped, Option.getD_some]
  exact ⟨halfAt_of_half_bytes rfl rfl, rfl⟩

theorem replyContent_eq {s : State} {d : DescId} {m : Desc} (h : s.desc d = some m) :
    replyContent s p n d = reply s .ok (contentBytes s p n d m) := by
  rw [replyContent, h]

end

/-! ## FETCH -/

section

variable (s : State) (p : Port)

/-- The checks of FETCH. -/
def fetchChecks (b : List Byte) : List (Bool × Status) :=
  [(decide (b = []), .badLength), (s.inRun, .wrongState), (s.online p, .notMember),
    ((List.finRange 4).any fun n => ((s.rx.get p).slots.at n).lease.isNone, .noLeaseSlot),
    ((s.rx.get p).queue != [], .empty)]

/-- R111, R112: a lease on the head of the queue, in the lowest FREE slot. -/
def State.fetchHead : State × Answer :=
  match (s.rx.get p).lowestFree, (s.rx.get p).queue with
  | some n, d :: _ => replyContent (s.grantLease p n d) p n d
  | _, _ => refuse s .empty

theorem State.fetchHead_eq {n : SlotId} {d : DescId} {rest : List DescId} (free : (s.rx.get p).lowestFree = some n)
    (head : (s.rx.get p).queue = d :: rest) : s.fetchHead p = replyContent (s.grantLease p n d) p n d := by
  rw [State.fetchHead, free, head]

theorem Rx.lowestFree_isSome (r : Rx) :
    r.lowestFree.isSome = (List.finRange 4).any fun n => (r.slots.at n).lease.isNone := by
  rw [Bool.eq_iff_iff, Rx.lowestFree, List.find?_isSome]
  simp

/-- R111: the lowest FREE lease slot is the one below which none is FREE. -/
theorem Rx.lowestFree_eq_some (r : Rx) (n : SlotId) :
    r.lowestFree = some n ↔ (r.slots.at n).lease = none ∧ ∀ n', n' < n → (r.slots.at n').lease ≠ none := by
  have find : r.lowestFree = Fin.find? fun n => (r.slots.at n).lease.isNone := (Fin.find?_eq_find?_finRange ..).symm
  rw [find, Fin.find?_eq_some_iff]
  simp [Option.isNone_iff_eq_none, ← Option.isSome_iff_ne_none]

/-- R110, R111: FETCH is its checks in order and then the lease. -/
theorem fetch_eq (b : List Byte) : fetch s p b = checked s (fetchChecks s p b) (s.fetchHead p) := by
  match b with
  | _ :: _ => rfl
  | [] =>
    have length : decide (([] : List Byte) = []) = true := rfl
    rw [fetchChecks, checked_cons, if_pos length, checked_member, fetch, ← Rx.lowestFree_isSome, State.fetchHead]
    congr 1
    cases (s.rx.get p).lowestFree with
    | none => rfl
    | some n => cases (s.rx.get p).queue <;> rfl

theorem exec_fetch (b : List Byte) : exec (.fetch p b) s = command (.fetch p b) p s fun s => fetch s p b := rfl

/-- R111: what a lease grant leaves in the Receive Unit and in the Message Store. -/
theorem State.grantLease_eq {s : State} {d : DescId} {m : Desc} (h : s.desc d = some m) (p : Port) (n : SlotId) :
    s.grantLease p n d = { s with
      rx := s.rx.modify p fun r =>
        { r.modSlot n (LeaseSlot.granted ⟨d, s.leaseDeadline p⟩) with queue := r.queue.tail }
      mst := { s.mst with desc := s.mst.desc.put d (some (m.leaseTo p)) } } := by
  unfold State.grantLease State.modDesc
  have kept : State.desc (s.modRx p fun r =>
    { r.modSlot n (LeaseSlot.granted ⟨d, s.leaseDeadline p⟩) with queue := r.queue.tail }) d = some m := h
  rw [kept]
  rfl

end

/-- Settles O28: FETCH is its checks in order and then the lease of the head of the queue in the lowest FREE slot. -/
theorem fetchLeasesQueueHead : Obligations.FetchLeasesQueueHead := by
  unfold Obligations.FetchLeasesQueueHead
  intro s p b ht
  have leases := fetch_eq s p b
  split
  next st failing => exact justAnswers_of_failing (exec_fetch s p b) ht leases failing
  next passing =>
    intro d rest m n head stored free lowest
    have acts := leases.trans (checked_of_none passing _)
    have granted : (s.grantLease p n d).desc d = some (m.leaseTo p) := by
      rw [State.grantLease_eq stored]
      simp [State.desc]
    rw [s.fetchHead_eq p (((s.rx.get p).lowestFree_eq_some n).2 ⟨free, lowest⟩) head, replyContent_eq p n granted] at acts
    obtain ⟨runs, answers, changes⟩ := answers_reply_of_act (exec_fetch s p b) ht acts
      ((s.grantLease_changes p n d).mono (z := [.mst, .rx]) (by simp)) (by simp)
    refine ⟨_, _, runs, answers, isContent_contentBytes (s.grantLease p n d) p n d (m.leaseTo p), changes, ?_,
      fun q other => ?_, ?_, fun k other => ?_, ?_⟩
    all_goals simp only [State.answer_mst, State.answer_rx, State.grantLease_eq stored]
    · rfl
    · rw [PerPort.get_modify, if_neg other]
    · simp [Rx.modSlot, head]
    · simp [Rx.modSlot, other]
    · simp [Rx.modSlot, LeaseSlot.granted, State.leaseDeadline]

/-! ## Commands that name a lease by its handle -/

section

variable {s : State} {p : Port}

/-- R113: the checks of a handle `k` that names slot `n` at generation `g`. -/
def handleChecks (s : State) (p : Port) (n : SlotId) (g : BitVec 4) : Bool × Status :=
  let sl := (s.rx.get p).slots.at n
  (sl.lease.isSome && sl.generation == g, if sl.lastEnd = some ⟨g, .expired⟩ then .late else .badLease)

/-- What a command does on the lease of slot `n`, where one is held. -/
def State.onHeld (s : State) (p : Port) (n : SlotId) (act : SlotId → Lease → State × Answer) : State × Answer :=
  ((s.rx.get p).slots.at n).lease.elim (refuse s .badLease) (act n)

theorem State.onHeld_eq {n : SlotId} {l : Lease} (held : ((s.rx.get p).slots.at n).lease = some l)
    (act : SlotId → Lease → State × Answer) : s.onHeld p n act = act n l := by
  rw [State.onHeld, held, Option.elim_some]

/-- R113: a handle that resolves to a lease passes its check. -/
theorem checked_of_resolved {n : SlotId} {g : BitVec 4} {l : Lease} (h : ((s.rx.get p).slots.at n).resolve g = .ok l)
    (act : SlotId → Lease → State × Answer) : checked s [handleChecks s p n g] (s.onHeld p n act) = act n l := by
  rw [handleChecks, checked_cons, checked_nil, State.onHeld]
  unfold LeaseSlot.resolve at h
  cases held : ((s.rx.get p).slots.at n).lease <;> rw [held] at h <;> dsimp only at h
  · split at h <;> cases h
  · repeat' split at h
    all_goals cases h
    simp [*]

/-- R113: a handle that resolves to none is answered LATE or BAD_LEASE. -/
theorem checked_of_unresolved {n : SlotId} {g : BitVec 4} {st : Status}
    (h : ((s.rx.get p).slots.at n).resolve g = .error st) (act : SlotId → Lease → State × Answer) :
    checked s [handleChecks s p n g] (s.onHeld p n act) = refuse s st := by
  rw [handleChecks, checked_cons, checked_nil, State.onHeld]
  unfold LeaseSlot.resolve at h
  cases held : ((s.rx.get p).slots.at n).lease <;> rw [held] at h <;> dsimp only at h <;> repeat' split at h
  all_goals cases h
  all_goals simp [*]

theorem handleOf_of_named {x : Byte} {n : SlotId} {g : BitVec 4}
    (named : x.toNat = 16 * n.val + g.toNat) : handleOf x = some (n, g) := by
  rw [handleOf_eq_some, ← BitVec.toNat_inj, handleByte_toNat, named]

/-- R110, R113: a command that names a lease checks the handle, then the slot. -/
theorem onLease_eq {x : Byte} {n : SlotId} {g : BitVec 4} (named : x.toNat < 64 → x.toNat = 16 * n.val + g.toNat)
    (act : SlotId → Lease → State × Answer) :
    onLease s p x act =
      checked s [(decide (x.toNat < 64), .badArgument), handleChecks s p n g] (s.onHeld p n act) := by
  rw [checked_cons, onLease]
  by_cases inTable : x.toNat < 64
  · rw [if_pos (by simpa using inTable), handleOf_of_named (named inTable)]
    dsimp only
    cases resolved : ((s.rx.get p).slots.at n).resolve g with
    | ok l => exact (checked_of_resolved resolved act).symm
    | error st => exact (checked_of_unresolved resolved act).symm
  · rw [if_neg (by simpa using inTable), (handleOf_eq_none x).2 (by omega)]

end

section

variable (s : State) (p : Port) (b : List Byte) (n : SlotId) (g : BitVec 4)

/-- The checks of REREAD and ACK, for a handle that names slot `n` at generation `g`. -/
def leaseChecks : List (Bool × Status) :=
  [(decide (b.length = 1), .badLength), (s.inRun, .wrongState), (s.online p, .notMember),
    (decide (byteAt b 0 < 64), .badArgument), handleChecks s p n g]

/-- The checks of RETURN. -/
def returnChecks : List (Bool × Status) :=
  [(decide (b.length = 2), .badLength), (s.inRun, .wrongState), (s.online p, .notMember),
    (decide (byteAt b 0 < 64), .badArgument), (decide (byteAt b 1 ≤ 1), .badArgument), handleChecks s p n g]

/-- The end of a lease by ACK, answered. -/
def State.acked (n : SlotId) (l : Lease) : State × Answer :=
  reply ((s.endLease p n .settled).settle l.desc p .delivered) .ok [byteOf l.desc.val]

/-- The end of a lease by RETURN, answered. -/
def State.returned (pos : Position) (n : SlotId) (l : Lease) : State × Answer :=
  reply (s.endWithoutAck p n l.desc .settled pos) .ok
    [if s.usedUp p l.desc then 1 else 0, byteOf ((s.endWithoutAck p n l.desc .settled pos).rx.get p).queue.length]

/-- The RETURN position of a byte in range. -/
def positionAt : Position := if byteAt b 1 = 0 then .head else .tail

variable {b n g}

/-- R110, R114: REREAD is its checks in order and then the content of the message. -/
theorem reread_eq (named : byteAt b 0 < 64 → byteAt b 0 = 16 * n.val + g.toNat) : reread s p b =
    checked s (leaseChecks s p b n g) (s.onHeld p n fun n l => replyContent s p n l.desc) := by
  match b with
  | [] | _ :: _ :: _ => exact (checked_badLength (by simp)).symm
  | [x] =>
    have length : decide ([x].length = 1) = true := rfl
    rw [leaseChecks, checked_cons, if_pos length, checked_member, reread, onLease_eq (x := x) named]
    rfl

/-- R110, R115: ACK is its checks in order and then the end of the lease. -/
theorem ack_eq (named : byteAt b 0 < 64 → byteAt b 0 = 16 * n.val + g.toNat) : ack s p b =
    checked s (leaseChecks s p b n g) (s.onHeld p n (s.acked p)) := by
  match b with
  | [] | _ :: _ :: _ => exact (checked_badLength (by simp)).symm
  | [x] =>
    have length : decide ([x].length = 1) = true := rfl
    rw [leaseChecks, checked_cons, if_pos length, checked_member, ack, onLease_eq (x := x) named]
    rfl

theorem positionOf_eq (x : Byte) :
    positionOf x = if x.toNat ≤ 1 then some (if x.toNat = 0 then .head else .tail) else none := by
  simp only [positionOf, Byte.eq_zero_iff, Byte.eq_one_iff]
  by_cases zero : x.toNat = 0
  · simp [zero]
  · by_cases one : x.toNat = 1
    · simp [one]
    · rw [if_neg zero, if_neg one, if_neg (by omega)]

/-- R110, R117: RETURN is its checks in order and then the end of the lease. -/
theorem returnLease_eq (named : byteAt b 0 < 64 → byteAt b 0 = 16 * n.val + g.toNat) : returnLease s p b =
    checked s (returnChecks s p b n g) (s.onHeld p n (s.returned p (positionAt b))) := by
  match b with
  | [] | [_] | _ :: _ :: _ :: _ => exact (checked_badLength (by simp)).symm
  | [x, y] =>
    have length : decide ([x, y].length = 2) = true := rfl
    have handle : byteAt [x, y] 0 = x.toNat := rfl
    have position : byteAt [x, y] 1 = y.toNat := rfl
    replace named : x.toNat < 64 → x.toNat = 16 * n.val + g.toNat := named
    rw [returnChecks, checked_cons, if_pos length, checked_member, returnLease]
    congr 1
    rw [checked_cons, checked_cons, positionAt, handle, position, positionOf_eq]
    by_cases inTable : x.toNat < 64
    · rw [if_pos (decide_eq_true inTable), handleOf_of_named (named inTable)]
      by_cases inRange : y.toNat ≤ 1
      · rw [if_pos inRange, if_pos (decide_eq_true inRange)]
        dsimp only
        rw [onLease_eq (x := x) named, checked_cons, if_pos (decide_eq_true inTable)]
        rfl
      · rw [if_neg inRange, if_neg (by simpa using inRange)]
    · rw [decide_eq_false inTable, if_neg Bool.false_ne_true, (handleOf_eq_none x).2 (by omega)]

theorem exec_reread (b : List Byte) : exec (.reread p b) s = command (.reread p b) p s fun s => reread s p b := rfl

theorem exec_ack (b : List Byte) : exec (.ack p b) s = command (.ack p b) p s fun s => ack s p b := rfl

theorem exec_returnLease (b : List Byte) :
    exec (.returnLease p b) s = command (.returnLease p b) p s fun s => returnLease s p b := rfl

end

/-- Settles O29: each of the three commands is its checks in order, the handle's last. -/
theorem handlesResolve : Obligations.HandlesResolve := by
  unfold Obligations.HandlesResolve
  intro s p b n g sl member handle lease named
  refine ⟨fun i hi ht st failing => ?_, fun ht st failing => ?_, fun l m ht passing held stored => ?_⟩
  · simp only [List.mem_cons, List.not_mem_nil, or_false] at hi
    rcases hi with rfl | rfl
    · exact justAnswers_of_failing (exec_reread s p b) ht (reread_eq s p named) failing
    · exact justAnswers_of_failing (exec_ack s p b) ht (ack_eq s p named) failing
  · exact justAnswers_of_failing (exec_returnLease s p b) ht (returnLease_eq s p named) failing
  · have acts := (reread_eq s p named).trans (checked_of_none passing _)
    rw [State.onHeld_eq held, replyContent_eq p n stored] at acts
    exact ⟨_, justAnswers_of_act (exec_reread s p b) ht acts, isContent_contentBytes s p n l.desc m⟩

end Sys2Proof.Machine
end

section
/-! PROOFS. How a lease ends: ACK, RETURN and LEASE_EXPIRY on a handle that acts (07_receive_queues_and_leases.md, R115 to
R119). -/

namespace Sys2Proof.Machine

open Sys2Proof

/-! ## Handles that act -/

section

variable {s : State} {p : Port} {n : SlotId} {l : Lease}

/-- R113: the handle byte of a HELD slot, made with its generation, passes every check of a handle. -/
theorem handle_acts (held : ((s.rx.get p).slots.at n).lease = some l) {g : BitVec 4} (current : g = ((s.rx.get p).slots.at n).generation) :
    (handleChecks s p n g).1 = true ∧ (handleByte n g).toNat < 64 ∧ (handleByte n g).toNat = 16 * n.val + g.toNat := by
  have hn := n.isLt
  have hg := g.isLt
  rw [handleByte_toNat, handleChecks, held, current]
  exact ⟨by simp, by omega, rfl⟩

/-- R115, R116: a lease ends where its slot is freed with its last end recorded and no other slot changes. -/
theorem leaseEnded_of_slots {t : State} {c : EndCause}
    (slots : (t.rx.get p).slots = ((s.rx.get p).modSlot n (LeaseSlot.ended c)).slots) (others : OnlyAt p s.rx t.rx) :
    LeaseEnded s t p n c := by
  refine ⟨?_, fun k other => ?_, others⟩
  · rw [slots, Rx.modSlot, Tbl.at_put, if_pos rfl]
    rfl
  · rw [slots, Rx.modSlot, Tbl.at_put, if_neg other]

theorem State.endLease_rx (s : State) (p : Port) (n : SlotId) (c : EndCause) :
    (s.endLease p n c).rx = s.rx.modify p fun r => r.modSlot n (LeaseSlot.ended c) := rfl

end

/-! ## ACK -/

/-- Settles O30: an ACK that passes its checks ends the lease and settles the delivery. -/
theorem ackSettlesDelivery : Obligations.AckSettlesDelivery := by
  unfold Obligations.AckSettlesDelivery
  intro s p b n l m ht run member held named stored
  subst named
  obtain ⟨acting, low, handle⟩ := handle_acts held rfl
  have passing : firstFailing (leaseChecks s p [handleByte n ((s.rx.get p).slots.at n).generation] n
      ((s.rx.get p).slots.at n).generation) = none := by
    rw [firstFailing_eq_none]
    simp [leaseChecks, run, member, acting, byteAt, low]
  have acts := (ack_eq s p (b := [handleByte n _]) fun _ => handle).trans (checked_of_none passing _)
  rw [State.onHeld_eq held] at acts
  have changes : ChangesOnly s ((s.endLease p n .settled).settle l.desc p .delivered) [.rx, .mst, .rpt, .att] :=
    ((s.endLease_changes p n .settled).mono (by simp)).comp ((State.settle_changes _ l.desc p _).mono (by simp))
  obtain ⟨runs, answers, changes⟩ := answers_reply_of_act (exec_ack s p _) ht acts changes (by simp)
  have rx : ((s.endLease p n .settled).settle l.desc p .delivered).rx =
      s.rx.modify p fun r => r.modSlot n (LeaseSlot.ended .settled) := by rw [State.settle_rx, State.endLease_rx]
  refine ⟨_, runs, answers, changes, leaseEnded_of_slots ?_ fun q other => ?_, ?_, ?_⟩
  · rw [State.answer_rx, rx, PerPort.get_modify, if_pos rfl]
  · rw [State.answer_rx, rx, PerPort.get_modify, if_neg other]
  · rw [State.answer_rx, rx, PerPort.get_modify, if_pos rfl]
    rfl
  · exact State.settled (s := s.endLease p n .settled) stored p .delivered

/-! ## Ends without ACK -/

section

variable {s : State} {p : Port} {n : SlotId} {d : DescId} {m : Desc} {c : EndCause} {pos : Position}

/-- R116: the attempts of a delivery are used up when they exceed the redelivery limit. -/
theorem State.usedUp_eq (stored : s.desc d = some m) :
    s.usedUp p d = decide ((s.params p).redelivery < m.attempts.get p) := by
  rw [State.usedUp, stored]
  rfl

/-- R108, R116: a lease that ends without ACK puts its delivery back while an attempt is left. -/
theorem State.endWithoutAck_requeued (stored : s.desc d = some m) (left : m.attempts.get p ≤ (s.params p).redelivery) :
    s.endWithoutAck p n d c pos = ((s.endLease p n c).setDesc d (some (m.setDelivery p .queued))).enqueue p d pos := by
  unfold State.endWithoutAck State.setDelivery
  have kept : (s.endLease p n c).desc d = some m := stored
  rw [s.usedUp_eq stored, decide_eq_false (by omega), if_neg Bool.false_ne_true, kept]

/-- R116: a lease that ends without ACK gives its delivery up once no attempt is left. -/
theorem State.endWithoutAck_givenUp (stored : s.desc d = some m) (none : (s.params p).redelivery < m.attempts.get p) :
    s.endWithoutAck p n d c pos = (s.endLease p n c).giveUp p d := by
  unfold State.endWithoutAck
  rw [s.usedUp_eq stored, decide_eq_true none, if_pos rfl]

/-- What the end of a lease without ACK leaves, where the delivery is put back. -/
def Requeued (s t : State) (p : Port) (n : SlotId) (d : DescId) (m : Desc) (c : EndCause) (pos : Position) : Prop :=
  ChangesOnly s t [.rx, .mst, .att] ∧ LeaseEnded s t p n c ∧
    t.rx.get p = { s.rx.get p with
      slots := (t.rx.get p).slots
      queue := if pos = .head then d :: (s.rx.get p).queue else (s.rx.get p).queue ++ [d] } ∧
    t.mst = { s.mst with desc := s.mst.desc.put d (some { m with delivery := m.delivery.set p .queued }) } ∧
    RaisedTo s t .rxReady (if (s.rx.get p).queue.length + 1 = (s.params p).watermark then [p] else [])

/-- What the end of a lease without ACK leaves, where the delivery is given up. -/
def GivenUp (s t : State) (p : Port) (n : SlotId) (d : DescId) (m : Desc) (c : EndCause) : Prop :=
  ChangesOnly s t [.rx, .mst, .rpt, .att] ∧ LeaseEnded s t p n c ∧
    t.rx.get p = { s.rx.get p with
      slots := (t.rx.get p).slots, deliveriesExpired := counted (s.rx.get p).deliveriesExpired 1 } ∧
    Settled (s.raise .deliveryExpired p) t p d m .expired

theorem State.requeued (stored : s.desc d = some m) (left : m.attempts.get p ≤ (s.params p).redelivery) :
    Requeued s (s.endWithoutAck p n d c pos) p n d m c pos := by
  have changes : ChangesOnly s (((s.endLease p n c).setDesc d (some (m.setDelivery p .queued))).enqueue p d pos)
      [.rx, .mst, .att] :=
    (((s.endLease_changes p n c).mono (by simp)).comp ((State.setDesc_changes _ d _).mono (by simp))).comp
      ((State.enqueue_changes _ p d pos).mono (by simp))
  rw [State.endWithoutAck_requeued stored left]
  refine ⟨changes, leaseEnded_of_slots ?_ fun q other => ?_, ?_, ?_, fun q => ?_⟩
  all_goals rw [State.enqueue_eq]
  · simp [State.endLease_rx]
  · simp [State.endLease_rx, other]
  · cases pos <;> simp [State.endLease_rx, Rx.modSlot]
  · rfl
  · have watermark : ((s.endLease p n c).setDesc d (some (m.setDelivery p .queued))).params p = s.params p := rfl
    have count : (((s.endLease p n c).setDesc d (some (m.setDelivery p .queued))).rx.get p).queue = (s.rx.get p).queue := by
      simp [State.endLease_rx, Rx.modSlot]
    rw [watermark, count]
    by_cases reaches : (s.rx.get p).queue.length + 1 = (s.params p).watermark
    · simp only [if_pos reaches]
      exact raisedTo_one s p .rxReady q
    · simp only [if_neg reaches]
      exact RaisedTo.refl s .rxReady q

theorem State.givenUp (stored : s.desc d = some m) (none : (s.params p).redelivery < m.attempts.get p) :
    GivenUp s (s.endWithoutAck p n d c pos) p n d m c := by
  have changes := s.endWithoutAck_changes p n d c pos
  rw [State.endWithoutAck_givenUp stored none] at changes ⊢
  have rx : ((s.endLease p n c).giveUp p d).rx = (s.endLease p n c).rx.modify p fun r =>
      { r with deliveriesExpired := bump r.deliveriesExpired } := State.settle_rx _ d p _
  refine ⟨changes, leaseEnded_of_slots ?_ fun q other => ?_, ?_, ?_⟩
  · simp [rx, State.endLease_rx]
  · simp [rx, State.endLease_rx, other]
  · simp [rx, State.endLease_rx, Rx.modSlot, bump_eq]
  · exact State.settled (s := (((s.endLease p n c).modRx p fun r =>
      { r with deliveriesExpired := bump r.deliveriesExpired }).raise .deliveryExpired p)) stored p .expired

end

/-! ## RETURN -/

theorem positionAt_eq (x y : Byte) : positionAt [x, y] = if y = 0 then .head else .tail := by
  simp only [Byte.eq_zero_iff]
  rfl

/-- Settles O31: a RETURN that passes its checks ends the lease, and puts the delivery back or gives it up. -/
theorem returnRequeuesOrGivesUp : Obligations.ReturnRequeuesOrGivesUp := by
  unfold Obligations.ReturnRequeuesOrGivesUp
  intro s p b pos n l m ht run member held named inRange stored q
  subst named
  obtain ⟨acting, low, handle⟩ := handle_acts held rfl
  have passing : firstFailing (returnChecks s p [handleByte n ((s.rx.get p).slots.at n).generation, pos] n
      ((s.rx.get p).slots.at n).generation) = none := by
    rw [firstFailing_eq_none]
    simp [returnChecks, run, member, acting, byteAt, low, inRange]
  have acts := (returnLease_eq s p (b := [handleByte n _, pos]) fun _ => handle).trans (checked_of_none passing _)
  rw [State.onHeld_eq held, State.returned, State.usedUp_eq stored] at acts
  rw [positionAt_eq] at acts
  rcases Nat.lt_or_ge (s.params p).redelivery (m.attempts.get p) with none | left
  · obtain ⟨changes, ended, rx, settled⟩ :=
      State.givenUp (n := n) (c := .settled) (pos := if pos = 0 then .head else .tail) stored none
    have queue := congrArg Rx.queue rx
    dsimp only at queue
    rw [decide_eq_true none, if_pos rfl, queue] at acts
    obtain ⟨runs, answers, changes⟩ := answers_reply_of_act (exec_returnLease s p _) ht acts changes (by simp)
    exact ⟨_, runs, ended, fun left => by omega, fun _ => ⟨changes, answers, rx, settled⟩⟩
  · obtain ⟨changes, ended, rx, mst, raised⟩ :=
      State.requeued (n := n) (c := .settled) (pos := if pos = 0 then .head else .tail) stored left
    have order : (if (if pos = 0 then Position.head else .tail) = .head then l.desc :: (s.rx.get p).queue
        else (s.rx.get p).queue ++ [l.desc]) = if pos = 0 then l.desc :: q else q ++ [l.desc] := by
      by_cases first : pos = 0 <;> simp [first, q]
    have count : (if pos = 0 then l.desc :: q else q ++ [l.desc]).length = q.length + 1 := by split <;> simp
    rw [order] at rx
    have queue := congrArg Rx.queue rx
    dsimp only at queue
    rw [decide_eq_false (by omega), if_neg Bool.false_ne_true, queue, count] at acts
    obtain ⟨runs, answers, changes⟩ := answers_reply_of_act (exec_returnLease s p _) ht acts changes (by simp)
    exact ⟨_, runs, ended, fun _ => ⟨changes.mono (by simp), answers, rx, mst, raised⟩, fun none => by omega⟩

/-! ## LEASE_EXPIRY -/

/-- R118: the state a lease expiry ends the lease in: the deadline is reached, the expiry counted and told. -/
def State.expiring (s : State) (p : Port) (l : Lease) : State :=
  (State.modRx { s with timer := s.timer.reach l.deadline } p fun r =>
    { r with leaseExpiries := bump r.leaseExpiries }).raise .leaseExpired p

theorem State.expire_eq (s : State) (p : Port) (n : SlotId) (l : Lease) :
    s.expire p n l = (s.expiring p l).endWithoutAck p n l.desc .expired .head := rfl

theorem State.expiring_changes (s : State) (p : Port) (l : Lease) :
    ChangesOnly s (s.expiring p l) [.timer, .rx, .att] :=
  (((timer_changes s _).mono (by simp)).comp ((State.modRx_changes _ p _).mono (by simp))).comp
    ((State.raise_changes _ _ p).mono (by simp))

theorem State.expiring_rx (s : State) (p : Port) (l : Lease) :
    (s.expiring p l).rx.get p = { s.rx.get p with leaseExpiries := counted (s.rx.get p).leaseExpiries 1 } := by
  simp [State.expiring, bump_eq]

/-- R78: a time that the time base is brought to is reached, and the time base moves only if it was not. -/
theorem Timer.reach_eq (tm : Timer) (t : Time) : reached t (tm.reach t).timeBase = true ∧
    tm.reach t = { tm with timeBase := (tm.reach t).timeBase } ∧ (reached t tm.timeBase = true → tm.reach t = tm) := by
  unfold Timer.reach
  split
  next past => exact ⟨past, rfl, fun _ => rfl⟩
  next ahead => exact ⟨by simp [reached], rfl, fun past => absurd past ahead⟩

/-- What ends a lease of the state in which it expires ends it of the state before. -/
theorem LeaseEnded.of_expiring {s t : State} {p : Port} {l : Lease} {n : SlotId} {c : EndCause}
    (h : LeaseEnded (s.expiring p l) t p n c) : LeaseEnded s t p n c := by
  obtain ⟨ended, others, ports⟩ := h
  rw [State.expiring_rx] at ended others
  refine ⟨ended, others, fun q other => ?_⟩
  rw [ports q other]
  simp [State.expiring, other]

theorem exec_leaseExpiry {s : State} {p : Port} {n : SlotId} {l : Lease} (high : s.resetLow = false)
    (clock : s.refclk = true) (held : ((s.rx.get p).slots.at n).lease = some l) :
    exec (.leaseExpiry p n) s = .next (s.expire p n l) := by
  simp [exec, execLeaseExpiry, high, clock, held]

/-- Settles O32: an expiry ends the lease as a RETURN does, in the state in which it is counted. -/
theorem leaseExpiryRequeuesOrGivesUp : Obligations.LeaseExpiryRequeuesOrGivesUp := by
  unfold Obligations.LeaseExpiryRequeuesOrGivesUp
  intro s p n l m high clock held stored q rx'
  have before : (s.expiring p l).rx.get p = rx' := s.expiring_rx p l
  have kept : (s.expiring p l).desc l.desc = some m := stored
  have ends := s.expire_eq p n l
  obtain ⟨reached, only, stays⟩ := s.timer.reach_eq l.deadline
  have timer : (s.expire p n l).timer = s.timer.reach l.deadline :=
    ((s.expiring p l).endWithoutAck_changes p n l.desc .expired .head).timer (by simp)
  refine ⟨_, exec_leaseExpiry high clock held, ?_, by rwa [timer], by rwa [timer], fun past => timer.trans (stays past),
    fun left => ?_, fun none => ?_⟩
  · rcases Nat.lt_or_ge (s.params p).redelivery (m.attempts.get p) with none | left
    · exact (State.givenUp (n := n) (c := .expired) (pos := .head) kept none).2.1.of_expiring
    · exact (State.requeued (n := n) (c := .expired) (pos := .head) kept left).2.1.of_expiring
  · obtain ⟨changes, _, rx, mst, raised⟩ := State.requeued (n := n) (c := .expired) (pos := .head) kept left
    rw [before] at rx raised
    exact ⟨((s.expiring_changes p l).mono (by simp)).comp (changes.mono (by simp)), rx, mst, raised⟩
  · obtain ⟨changes, _, rx, settled⟩ := State.givenUp (n := n) (c := .expired) (pos := .head) kept none
    rw [before] at rx
    exact ⟨((s.expiring_changes p l).mono (by simp)).comp (changes.mono (by simp)), rx, settled⟩

end Sys2Proof.Machine
end

section
/-! PROOFS. One link's window, its requests and its executions (11_host_link_protocol.md, R165 to R175). -/

namespace Sys2Proof.Machine

open Sys2Proof

/-! ## Updates of one link -/

section

variable {s t : State} {p : Port} {f g : Link → Link}

/-- From `s` to `t`, the link of `p` passed through a function, and no other link and no other part changed. -/
def LinkBecomes (s t : State) (p : Port) (l : Link) : Prop :=
  ChangesOnly s t [.link] ∧ OnlyAt p s.link t.link ∧ t.link.get p = l

theorem State.modLink_becomes (s : State) (p : Port) (f : Link → Link) : LinkBecomes s (s.modLink p f) p (f (s.link.get p)) :=
  ⟨s.modLink_changes p f, fun q other => by simp [other], by simp⟩

theorem State.modLink_modLink (s : State) (p : Port) (f g : Link → Link) :
    (s.modLink p f).modLink p g = s.modLink p fun l => g (f l) := by
  cases p <;> rfl

theorem State.modLink_congr (h : f (s.link.get p) = g (s.link.get p)) : s.modLink p f = s.modLink p g := by
  unfold State.modLink PerPort.modify
  rw [h]

theorem State.raise_modLink (s : State) (p q : Port) (k : EventKind) (f : Link → Link) :
    (s.modLink p f).raise k q = (s.raise k q).modLink p f := rfl

end

/-! ## The chip-select window -/

section

variable {s : State} {p : Port}

theorem exec_csNFall_of_live (live : s.live p = true) (high : (s.link.get p).csLow = false) :
    exec (.csNFall p) s = .next (s.modLink p fun l => Link.openWindow { l with csLow := true }) := by
  simp [exec, execCsNFall, high, live, State.modLink_modLink]

theorem exec_csNFall_of_low (low : (s.link.get p).csLow = true) : exec (.csNFall p) s = .next s := by
  simp [exec, execCsNFall, low]

theorem exec_responseSent_of_sending (live : s.live p = true) (sending : (s.link.get p).window = .sending) :
    exec (.responseSent p) s = .next (s.modLink p fun l => { l with window := .done, sending := none }) := by
  simp [exec, execResponseSent, live, sending]

theorem exec_responseSent_of_other (other : (s.link.get p).window ≠ .sending) : exec (.responseSent p) s = .next s := by
  simp [exec, execResponseSent, other]

/-- R169: the window of a rise is aborted when it is RECEIVING or DISCARDING and a byte of it is complete. -/
def Link.aborts (l : Link) (bytes : Nat) : Bool := l.window.abortable && decide (1 ≤ bytes)

theorem Link.aborts_iff (l : Link) (bytes : Nat) :
    l.aborts bytes = true ↔ (l.window = .receiving ∨ l.window = .discarding) ∧ 1 ≤ bytes := by
  rw [Link.aborts, Bool.and_eq_true, decide_eq_true_eq]
  cases l.window <;> simp [Window.abortable]

/-- R166, R169: the link of a port after a rise of CS_N. -/
def Link.risen (l : Link) (bytes : Nat) : Link :=
  { l with
    csLow := false, window := .idle, sending := none
    abortedRequests := if l.aborts bytes then bump l.abortedRequests else l.abortedRequests }

theorem Link.risen_of_aborts {l : Link} {bytes : Nat} (h : l.aborts bytes = true) : l.risen bytes =
    { l with
      csLow := false, window := .idle, sending := none, abortedRequests := counted l.abortedRequests 1 } := by
  rw [Link.risen, if_pos h, bump_eq]

theorem Link.risen_of_ends {l : Link} {bytes : Nat} (h : l.aborts bytes = false) : l.risen bytes =
    { l with csLow := false, window := .idle, sending := none } := by
  rw [Link.risen, h, if_neg Bool.false_ne_true]

theorem exec_csNRise_of_live (live : s.live p = true) (low : (s.link.get p).csLow = true) (bytes : Nat) :
    exec (.csNRise p bytes) s = .next ((if (s.link.get p).aborts bytes then s.raise .linkError p else s).modLink p
      fun l => l.risen bytes) := by
  have runs : exec (.csNRise p bytes) s = .next ((if (s.link.get p).aborts bytes then
      (s.modLink p fun l => { l with csLow := false }).abort p else s.modLink p fun l => { l with csLow := false }).modLink
        p Link.closeWindow) := by
    simp only [exec, execCsNRise, low, live, Bool.not_true, Bool.false_eq_true, if_false, if_true]
    rfl
  rw [runs]
  cases aborted : (s.link.get p).aborts bytes with
  | true =>
    rw [if_pos rfl, if_pos rfl, State.abort, State.modLink_modLink, State.raise_modLink, State.modLink_modLink]
    refine congrArg _ (State.modLink_congr ?_)
    have link : (s.raise .linkError p).link.get p = s.link.get p := rfl
    rw [link, Link.risen_of_aborts aborted, ← bump_eq]
    rfl
  | false =>
    rw [if_neg Bool.false_ne_true, if_neg Bool.false_ne_true, State.modLink_modLink]
    refine congrArg _ (State.modLink_congr ?_)
    rw [Link.risen_of_ends aborted]
    rfl

theorem exec_csNRise_of_high (high : (s.link.get p).csLow = false) (bytes : Nat) :
    exec (.csNRise p bytes) s = .next s := by
  simp [exec, execCsNRise, high]

end

/-- Settles O7: a fall opens the window, a rise closes it, and MISO follows the window. -/
theorem chipSelectOpensAndEndsWindow : Obligations.ChipSelectOpensAndEndsWindow := by
  unfold Obligations.ChipSelectOpensAndEndsWindow
  intro s p live l
  refine ⟨fun high => ⟨_, exec_csNFall_of_live live high, ?_⟩, exec_csNFall_of_low, fun off => ?_, fun low other => ?_,
    fun r low sending held => ?_, fun sending => ⟨_, exec_responseSent_of_sending live sending, ?_⟩,
    exec_responseSent_of_other, fun bytes low => ⟨_, exec_csNRise_of_live live low bytes, ?_⟩⟩
  · exact s.modLink_becomes p _
  · unfold State.miso
    rcases off with high | idle
    · simp [l] at high
      simp [high]
    · simp [l] at idle
      simp [idle]
  · unfold State.miso
    simp only [l, List.mem_cons, List.not_mem_nil, or_false] at low other
    rcases other with window | window | window | window <;> simp [live, low, window]
  · unfold State.miso
    simp only [l] at low sending held
    simp [live, low, sending, held]
  · exact s.modLink_becomes p _
  · rw [← l.aborts_iff bytes]
    cases aborted : l.aborts bytes with
    | true =>
      obtain ⟨changes, others, becomes⟩ := (s.raise .linkError p).modLink_becomes p fun l => l.risen bytes
      exact ⟨others, ((s.raise_changes .linkError p).mono (by simp)).comp (changes.mono (by simp)),
        fun _ => ⟨becomes.trans (Link.risen_of_aborts aborted), raisedTo_one s p .linkError⟩, fun no => absurd rfl no⟩
    | false =>
      obtain ⟨changes, others, becomes⟩ := s.modLink_becomes p fun l => l.risen bytes
      exact ⟨others, changes.mono (by simp), fun yes => absurd yes Bool.false_ne_true,
        fun _ => ⟨becomes.trans (Link.risen_of_ends aborted), rfl⟩⟩

/-! ## Requests -/

section

variable {s : State} {p : Port} {code tag : Byte} {payload : List Byte} {crc : Half}

theorem exec_lengthAbove272_of_short {n : Nat} (short : n ≤ 272) : exec (.lengthAbove272 p code tag n) s = .next s := by
  simp [exec, execLengthAbove272, short]

theorem exec_lengthAbove272_of_other (other : (s.link.get p).window ≠ .receiving) (n : Nat) :
    exec (.lengthAbove272 p code tag n) s = .next s := by
  simp [exec, execLengthAbove272, other]

theorem exec_lengthAbove272_of_long (live : s.live p = true) (receiving : (s.link.get p).window = .receiving) {n : Nat}
    (long : 272 < n) : exec (.lengthAbove272 p code tag n) s = .next (s.tooLong p tag) := by
  simp [exec, execLengthAbove272, live, receiving, long]

theorem exec_requestReceived_of_other (other : (s.link.get p).window ≠ .receiving) :
    exec (.requestReceived p code tag payload crc) s = .next s := by
  simp [exec, execRequestReceived, other]

theorem exec_requestReceived_of_long (live : s.live p = true) (receiving : (s.link.get p).window = .receiving)
    (long : 272 < payload.length) :
    exec (.requestReceived p code tag payload crc) s = .next (s.tooLong p tag) := by
  simp [exec, execRequestReceived, live, receiving, long]

theorem exec_requestReceived_of_badCrc (live : s.live p = true) (receiving : (s.link.get p).window = .receiving)
    (short : payload.length ≤ 272) (bad : crc ≠ Request.crc ⟨code, tag, payload⟩) :
    exec (.requestReceived p code tag payload crc) s = .next (s.crcFailed p tag) := by
  simp [exec, execRequestReceived, live, receiving, not_lt.2 short, bad.symm]

/-- R168, R170: a request with its CRC, received in a RECEIVING window, is accepted. -/
theorem exec_requestReceived_of_wellFormed (live : s.live p = true) (receiving : (s.link.get p).window = .receiving)
    (short : payload.length ≤ 272) :
    exec (.requestReceived p code tag payload (Request.crc ⟨code, tag, payload⟩)) s =
      .next (s.modLink p (Link.accept s p ⟨code, tag, payload⟩)) := by
  simp [exec, execRequestReceived, live, receiving, not_lt.2 short]

/-- R168: a request whose CRC fails is counted, told and answered with the flags that hold then. -/
theorem State.crcFailed_eq (s : State) (p : Port) (tag : Byte) : s.crcFailed p tag =
    (s.raise .linkError p).modLink p fun l => { l with
      window := .sending
      sending := some ⟨.crcError, tag, false, ((s.raise .linkError p).att.get p).attention, s.inRun, []⟩
      crcErrors := counted l.crcErrors 1 } := by
  simp only [State.crcFailed, State.raise_modLink, State.modLink_modLink, bump_eq]
  rfl

/-- R170: behind an executing request a request waits. -/
theorem Link.accept_of_executing {l : Link} (busy : l.executing.isSome = true) (r : Request) :
    l.accept s p r = { l with window := .awaiting, waiting := some r } := by
  rw [Link.accept, if_pos busy]

theorem Link.accept_of_free {l : Link} (free : l.executing = none) (r : Request) :
    l.accept s p r = Link.take s p r { l with window := .awaiting } := by
  rw [Link.accept, free, Option.isSome_none, if_neg Bool.false_ne_true]

/-- R174: a replay is counted, and its stored response sent if the window awaits it. -/
theorem Link.take_replay {l : Link} {r : Request} {resp : Response} (h : l.replayOf r = some resp) :
    l.take s p r = { l with
      executing := none, answer := none, replays := counted l.replays 1
      window := if l.window = .awaiting then .sending else l.window
      sending := if l.window = .awaiting then some { resp with replay := true } else l.sending } := by
  rw [Link.take, h, bump_eq]
  dsimp only
  split <;> rfl

end

/-- Settles O8: the link answers what it cannot accept; in any other window the bytes are ignored. -/
theorem unacceptableRequestIsAnswered : Obligations.UnacceptableRequestIsAnswered := by
  unfold Obligations.UnacceptableRequestIsAnswered
  intro s p code tag live l long
  refine ⟨fun receiving => ⟨fun n above => ⟨_, exec_lengthAbove272_of_long live receiving above, ?_⟩,
    fun payload crc above => ⟨_, exec_requestReceived_of_long live receiving above, ?_⟩,
    fun payload crc short bad => ⟨_, exec_requestReceived_of_badCrc live receiving short bad, ?_⟩⟩,
    fun n short => exec_lengthAbove272_of_short short,
    fun other => ⟨fun n => exec_lengthAbove272_of_other other n, fun payload crc => exec_requestReceived_of_other other⟩⟩
  · exact s.modLink_becomes p _
  · exact s.modLink_becomes p _
  · rw [State.crcFailed_eq]
    obtain ⟨changes, others, becomes⟩ := (s.raise .linkError p).modLink_becomes p fun l => { l with
      window := .sending
      sending := some ⟨.crcError, tag, false, ((s.raise .linkError p).att.get p).attention, s.inRun, []⟩
      crcErrors := counted l.crcErrors 1 }
    exact ⟨((s.raise_changes .linkError p).mono (by simp)).comp (changes.mono (by simp)), others,
      raisedTo_one s p .linkError, becomes⟩

/-- Settles O9: an accepted request waits behind an executing one, or is taken. -/
theorem requestIsTakenOrWaits : Obligations.RequestIsTakenOrWaits := by
  unfold Obligations.RequestIsTakenOrWaits
  intro s p code tag payload live receiving short l r
  obtain ⟨changes, others, becomes⟩ := s.modLink_becomes p (Link.accept s p r)
  refine ⟨_, exec_requestReceived_of_wellFormed live receiving short, changes, others, fun busy => ?_, fun free new => ?_⟩
  · rw [becomes, Link.accept_of_executing busy]
  · rw [becomes, Link.accept_of_free free, Link.take_new (Link.replayOf_eq_none new), State.linkAnswer_eq]

/-! ## REPEAT -/

section

variable (s : State) (p : Port)

/-- R175: REPEAT is its length check, then the stored response, if there is one. -/
theorem repeatLast_eq (b : List Byte) : repeatLast s p b = checked s [(decide (b = []), .badLength)]
    ((s.link.get p).record.elim (refuse s .empty) fun k => (s, .stored k.response)) := by
  match b with
  | _ :: _ => rfl
  | [] =>
    rw [repeatLast]
    cases (s.link.get p).record <;> rfl

theorem exec_repeatLast (b : List Byte) :
    exec (.repeatLast p b) s = command (.repeatLast p b) p s fun s => repeatLast s p b := rfl

end

/-- Settles O11: a replay and REPEAT change nothing but a counter, and answer with the stored response. -/
theorem storedResponseIsReturned : Obligations.StoredResponseIsReturned := by
  unfold Obligations.StoredResponseIsReturned
  refine ⟨?_, fun s p payload ht => ?_⟩
  · intro s p tag payload k live receiving short free recorded tagged same r
    obtain ⟨changes, others, becomes⟩ := s.modLink_becomes p (Link.accept s p r)
    refine ⟨_, exec_requestReceived_of_wellFormed live receiving short, changes, others, ?_⟩
    have replay : Link.replayOf { s.link.get p with window := .awaiting } r = some k.response :=
      Link.replayOf_eq_some recorded ⟨tagged, same, rfl⟩
    rw [becomes, Link.accept_of_free free, Link.take_replay replay, if_pos rfl, if_pos rfl]
    dsimp only
    rw [free]
  · have repeats := repeatLast_eq s p payload
    refine ⟨fun long => ?_, fun short unrecorded => ?_, fun k short recorded => ?_⟩
    · rw [decide_eq_false long] at repeats
      exact justAnswers_of_act (exec_repeatLast s p payload) ht repeats
    · rw [decide_eq_true short, unrecorded] at repeats
      exact justAnswers_of_act (exec_repeatLast s p payload) ht repeats
    · rw [decide_eq_true short, recorded] at repeats
      replace repeats : repeatLast s p payload = (s, .stored k.response) := repeats
      refine ⟨s.answer p (.stored k.response), ?_, answers_answer s p _, s.answer_changes p _⟩
      rw [exec_repeatLast, command_takes ht, repeats]

/-! ## The end of an execution -/

section

variable {s : State} {p : Port} {r : Request} {resp : Response} {l : Link}

theorem exec_executionEnd_of_answered {f : Formed} (live : s.live p = true) (executing : (s.link.get p).executing = some r)
    (answered : (s.link.get p).answer = some f) :
    exec (.executionEnd p) s = .next (s.modLink p (Link.finish s p r (s.respond p r.tag f))) := by
  simp [exec, execExecutionEnd, executing, answered, live]

/-- R173, R177: what the link records of an execution. -/
theorem Link.note_eq (r : Request) (resp : Response) (l : Link) : l.note r resp =
    { l with record :=
        if r.code = 0x02 ∨ (r.code = 0x03 ∧ resp.status = .ok) then l.record else some ⟨r.tag, r.code, resp⟩ } := by
  unfold Link.note
  by_cases unrecorded : r.code = 0x02 ∨ (r.code = 0x03 ∧ resp.status = .ok)
  · rw [if_pos unrecorded, if_neg (by simp [recorded_eq_false.2 unrecorded])]
  · rw [if_neg unrecorded, if_pos (Bool.of_not_eq_false (mt recorded_eq_false.1 unrecorded))]

/-- R170: an execution that ends with no request waiting sends its response if its window awaits it. -/
theorem Link.finish_of_none (alone : l.waiting = none) : l.finish s p r resp = { l.note r resp with
    executing := none, answer := none
    window := if l.window = .awaiting then .sending else l.window
    sending := if l.window = .awaiting then some resp else l.sending } := by
  rw [Link.finish, Link.note_eq]
  by_cases awaiting : l.window = .awaiting <;> simp [awaiting, alone, Link.send, Link.takeWaiting]

/-- R170: an execution that ends with a request waiting takes that request. -/
theorem Link.finish_of_some {w : Request} (next : l.waiting = some w) : l.finish s p r resp =
    Link.take s p w { l.note r resp with waiting := none, executing := none, answer := none } := by
  rw [Link.finish, Link.note_eq]
  simp [next, Link.takeWaiting]

end

/-- Settles O10: the end of an execution records, sends, and takes the waiting request by the record just made. -/
theorem executionEndRecordsAndSends : Obligations.ExecutionEndRecordsAndSends := by
  unfold Obligations.ExecutionEndRecordsAndSends
  intro s p r f live executing answered l resp record
  have formed : s.respond p r.tag f = resp := by
    obtain ⟨answer, run⟩ := f
    cases answer <;> rfl
  obtain ⟨changes, others, becomes⟩ := s.modLink_becomes p (Link.finish s p r resp)
  refine ⟨_, formed ▸ exec_executionEnd_of_answered live executing answered, changes, others, fun alone => ?_,
    fun w next new => ?_, fun w k next held tagged tag code => ?_⟩
  · rw [becomes, Link.finish_of_none alone, Link.note_eq]
  · rw [becomes, Link.finish_of_some next, Link.note_eq, Link.take_new (Link.replayOf_eq_none new), State.linkAnswer_eq]
  · rw [becomes, Link.finish_of_some next, Link.note_eq,
      Link.take_replay (Link.replayOf_eq_some held ⟨tagged, tag, code⟩)]

end Sys2Proof.Machine
end

section
/-! PROOFS. What stands still: a silenced port, RESET_N low, REFCLK stopped, and the idle step (10_membership_and_start_up.md,
R148; 05_cycle_timer.md, R78, R79; 11_host_link_protocol.md, R165). -/

namespace Sys2Proof.Machine

open Sys2Proof

/-! ## Silenced ports -/

section

variable {s t : State} {p : Port}

theorem State.live_eq_false (s : State) (p : Port) :
    s.live p = false ↔ s.resetLow = true ∨ s.portState p = .disabled := by
  rw [State.live]
  cases s.resetLow <;> simp

theorem State.miso_of_silenced (silenced : s.live p = false) : s.miso p = .highZ := by
  simp [State.miso, silenced]

/-- The level of one CS_N follows its pin, and nothing else changes. -/
def State.withCs (s : State) (p : Port) (low : Bool) : State := s.modLink p fun l => { l with csLow := low }

theorem State.withCs_self (s : State) (p : Port) : s.withCs p (s.link.get p).csLow = s := by
  have same : s.link.modify p (fun l => { l with csLow := (s.link.get p).csLow }) = s.link := by
    refine PerPort.ext_get fun q => ?_
    rw [PerPort.get_modify]
    by_cases own : q = p
    · rw [if_pos own, own]
    · rw [if_neg own]
  rw [State.withCs, State.modLink, same]

/-- R148: a command or happening of a port that takes no part moves at most the level of its CS_N. -/
theorem exec_of_silenced {i : Instr} (port : i.port? = some p) (silenced : s.live p = false) :
    ∃ low, exec i s = .next (s.withCs p low) := by
  have nothing : ∀ i, exec i s = .next s → ∃ low, exec i s = .next (s.withCs p low) :=
    fun i h => ⟨(s.link.get p).csLow, by rw [State.withCs_self, h]⟩
  have command : ∀ i code b, i.command? = some (p, code, b) → exec i s = .next s := fun i code b h => by
    rw [exec_eq_command h, command_not_taken]
    simp [State.takes, h, silenced]
  cases i with
  | csNFall q =>
    cases port
    cases low : (s.link.get p).csLow with
    | true => exact nothing _ (exec_csNFall_of_low low)
    | false => exact ⟨true, by simp [exec, execCsNFall, low, silenced, State.withCs]⟩
  | csNRise q bytes =>
    cases port
    cases low : (s.link.get p).csLow with
    | false => exact nothing _ (exec_csNRise_of_high low bytes)
    | true => exact ⟨false, by simp [exec, execCsNRise, low, silenced, State.withCs]⟩
  | lengthAbove272 q code tag n =>
    cases port
    exact nothing _ (by simp [exec, execLengthAbove272, silenced])
  | requestReceived q code tag payload crc =>
    cases port
    exact nothing _ (by simp [exec, execRequestReceived, silenced])
  | executionEnd q =>
    cases port
    refine nothing _ ?_
    simp only [exec, execExecutionEnd, silenced]
    split <;> rfl
  | responseSent q =>
    cases port
    exact nothing _ (by simp [exec, execResponseSent, silenced])
  | resetNAssert | resetNRelease _ | refclkStop | refclkResume | slotStart | leaseExpiry _ _ | syncOutPulseEnd => cases port
  | _ =>
    cases port
    exact nothing _ (command _ _ _ rfl)

theorem exec_timed_of_reset {i : Instr} (timed : i.timed = true) (low : s.resetLow = true) : exec i s = .next s := by
  cases i with
  | slotStart => simp [exec, execSlotStart, low]
  | leaseExpiry p n => simp [exec, execLeaseExpiry, low]
  | syncOutPulseEnd => simp [exec, execSyncOutPulseEnd, low]
  | _ => cases timed

end

/-- Settles O6: a silenced port's link takes no part, and no time-driven happening acts while RESET_N is low. -/
theorem silencedPortDoesNothing : Obligations.SilencedPortDoesNothing := by
  unfold Obligations.SilencedPortDoesNothing
  refine ⟨fun p s => s.live_eq_false p, fun i p s port silenced => ?_, fun p s => State.miso_of_silenced,
    fun i s timed low => exec_timed_of_reset timed low⟩
  obtain ⟨low, runs⟩ := exec_of_silenced port silenced
  obtain ⟨changes, others, becomes⟩ := s.modLink_becomes p fun l => { l with csLow := low }
  refine ⟨_, runs, changes, others, ?_, State.miso_of_silenced silenced⟩
  rw [State.withCs, becomes]

/-! ## The idle step -/

section

variable (s : State)

/-- An idle step makes one of the moves there are, if there is one. -/
theorem State.idle_moves : (s.idleMoves = [] ∧ s.idle = s) ∨
    ∃ m ∈ s.idleMoves, ∃ n, s.idle = State.idleMove { s with choices := n } m := by
  unfold State.idle
  split
  next none => exact .inl ⟨none, rfl⟩
  next m one => exact .inr ⟨m, by simp [one], s.choices, rfl⟩
  next m ms _ several =>
    refine .inr ⟨_, ?_, s.choices + 1, rfl⟩
    rw [several, List.getD_eq_getElem _ _ (Nat.mod_lt _ (by simp))]
    exact List.getElem_mem _

theorem State.happen_mem_idleMoves (i : Instr) :
    .happen i ∈ s.idleMoves ↔ s.resetLow = false ∧ (i ∈ s.dueNow ∨ ∃ p, i ∈ s.linkWork p) := by
  unfold State.idleMoves
  cases s.resetLow with
  | true => simp
  | false => simp [List.mem_append]

theorem State.tick_mem_idleMoves :
    .tick ∈ s.idleMoves ↔ s.resetLow = false ∧ s.refclk = true ∧ s.dueNow = [] := by
  unfold State.idleMoves
  cases s.resetLow with
  | true => simp
  | false => simp [List.mem_append]

/-- Nothing can happen while RESET_N is low, or while REFCLK is stopped and no link has work. -/
theorem State.still_of_idleMoves (none : s.idleMoves = []) :
    s.resetLow = true ∨ (s.refclk = false ∧ ∀ p, s.linkWork p = []) := by
  have no_happening : ∀ i, .happen i ∉ s.idleMoves := by simp [none]
  have no_tick : IdleMove.tick ∉ s.idleMoves := by simp [none]
  cases high : s.resetLow with
  | true => exact .inl rfl
  | false =>
    simp only [State.happen_mem_idleMoves, State.tick_mem_idleMoves, high, true_and, not_or, not_exists] at no_happening no_tick
    have nothing_due : s.dueNow = [] := List.eq_nil_iff_forall_not_mem.2 fun i => (no_happening i).1
    exact .inr ⟨by simpa [nothing_due] using no_tick, fun p => List.eq_nil_iff_forall_not_mem.2 fun i => (no_happening i).2 p⟩

theorem dueAt_eq_true {t? : Option Time} {now : Time} :
    dueAt t? now = true ↔ ∃ due, t? = some due ∧ (now - due).toNat < 2147483648 := by
  cases t? with
  | none => simp [dueAt]
  | some t => simp only [dueAt, reached, decide_eq_true_eq, Option.some.injEq, exists_eq_left']

theorem State.mem_dueExpiries (p : Port) (i : Instr) : i ∈ s.dueExpiries p ↔ ∃ n l, i = .leaseExpiry p n ∧
    ((s.rx.get p).slots.at n).lease = some l ∧ (s.timer.timeBase - l.deadline).toNat < 2147483648 := by
  simp only [State.dueExpiries, List.mem_map, List.mem_filter, List.mem_finRange, true_and, dueAt_eq_true,
    LeaseSlot.deadline, Option.map_eq_some_iff]
  constructor
  · rintro ⟨n, ⟨_, ⟨l, held, rfl⟩, past⟩, rfl⟩
    exact ⟨n, l, rfl, held, past⟩
  · rintro ⟨n, l, rfl, held, past⟩
    exact ⟨n, ⟨_, ⟨l, held, rfl⟩, past⟩, rfl⟩

/-- R78, R81, R85, R118: which happenings have come due. -/
theorem State.mem_dueNow (i : Instr) : i ∈ s.dueNow ↔ s.refclk = true ∧
    ((i = .slotStart ∧ ∃ due, s.timer.nextSlot = some due ∧ (s.timer.timeBase - due).toNat < 2147483648) ∨
      (i = .syncOutPulseEnd ∧ ∃ due, s.timer.syncEnd = some due ∧ (s.timer.timeBase - due).toNat < 2147483648) ∨
      ∃ p n l, i = .leaseExpiry p n ∧ ((s.rx.get p).slots.at n).lease = some l ∧
        (s.timer.timeBase - l.deadline).toNat < 2147483648) := by
  have one : ∀ (c : Bool) (j : Instr), i ∈ (if c then [j] else []) ↔ i = j ∧ c = true := by
    intro c j
    cases c <;> simp
  cases clock : s.refclk with
  | false => simp [State.dueNow, clock]
  | true =>
    rw [State.dueNow, clock, if_pos rfl, List.mem_append, List.mem_append, one, one, dueAt_eq_true, dueAt_eq_true]
    simp only [List.mem_flatMap, Port.mem_all, true_and, State.mem_dueExpiries, or_assoc]

/-- R170: a link's work is the command of its executing request, then the end of the execution. -/
theorem State.mem_linkWork (p : Port) (i : Instr) : i ∈ s.linkWork p ↔ ∃ q, (s.link.get p).executing = some q ∧
    ((i = .executionEnd p ∧ (s.link.get p).answer.isSome = true) ∨
      ((s.link.get p).answer = none ∧ commandOf p q.code q.payload = some i)) := by
  unfold State.linkWork
  cases (s.link.get p).executing with
  | none => simp
  | some r => cases (s.link.get p).answer <;> simp [eq_comm]

theorem step_of_empty (empty : s.pending = []) : step s = .next s.idle := by
  rw [step, empty]

end

/-- Settles O2: the idle step makes one of the idle moves, which are the due happenings, the links' work and the tick. -/
theorem emptyQueueIdles : Obligations.EmptyQueueIdles := by
  unfold Obligations.EmptyQueueIdles
  intro s empty
  refine ⟨_, step_of_empty s empty, ?_, s.mem_dueNow, s.mem_linkWork⟩
  rcases s.idle_moves with ⟨none, idle⟩ | ⟨m, mem, n, idle⟩
  · exact .inl ⟨idle, s.still_of_idleMoves none⟩
  · rw [idle]
    cases m with
    | happen i =>
      obtain ⟨high, due⟩ := (s.happen_mem_idleMoves i).1 mem
      exact .inr (.inl ⟨high, fun x hx => by cases x <;> first | rfl | simp at hx, i, rfl, due⟩)
    | tick =>
      obtain ⟨high, clock, none⟩ := s.tick_mem_idleMoves.1 mem
      exact .inr (.inr ⟨high, clock, none, fun x hx => by cases x <;> first | rfl | simp at hx, rfl⟩)

/-! ## RESET_N low and REFCLK stopped -/

section

variable {s t : State}

/-- While RESET_N is low, what is not a happening of RESET_N changes at most a CS_N and REFCLK. -/
theorem exec_of_reset {i : Instr} (low : s.resetLow = true) (other : i.isReset = false) (runs : exec i s = .next t) :
    ChangesOnly s t [.link, .refclk] := by
  cases timed : i.timed with
  | true =>
    rw [exec_timed_of_reset timed low] at runs
    cases runs
    exact .refl s _
  | false =>
    cases port : i.port? with
    | some p =>
      obtain ⟨cs, moves⟩ := exec_of_silenced port ((s.live_eq_false p).2 (.inl low))
      rw [moves] at runs
      cases runs
      exact (s.modLink_changes p _).mono (by simp)
    | none =>
      cases i with
      | refclkStop | refclkResume => exact (changes_of_exec runs).mono (by simp [partsOf])
      | resetNAssert | resetNRelease _ => cases other
      | slotStart | leaseExpiry _ _ | syncOutPulseEnd => cases timed
      | _ => cases port

/-- An idle step while RESET_N is low changes nothing. -/
theorem State.idle_of_reset (low : s.resetLow = true) : s.idle = s := by
  rcases s.idle_moves with ⟨_, idle⟩ | ⟨m, mem, _⟩
  · exact idle
  · simp [State.idleMoves, low] at mem

/-- An idle step while REFCLK is stopped leaves the timer alone. -/
theorem State.idle_timer_of_stopped (stopped : s.refclk = false) : s.idle.timer = s.timer := by
  rcases s.idle_moves with ⟨_, idle⟩ | ⟨m, mem, n, idle⟩
  · rw [idle]
  · cases m with
    | happen i => rw [idle]; rfl
    | tick => simp [s.tick_mem_idleMoves, stopped] at mem

/-- The time base has a value. -/
def State.timeBaseIs (now : Time) (s : State) : Prop := s.timer.timeBase = now

theorem timeBaseIs_reads (now : Time) : ReadsOnly (State.timeBaseIs now) [.timer] := by
  intro s t same h
  have timer : t.timer = s.timer := same .timer (by simp)
  unfold State.timeBaseIs at *
  rwa [timer]

theorem State.startTimer_timeBase (s : State) : s.startTimer.timer.timeBase = s.timer.timeBase := by
  unfold State.startTimer
  dsimp only
  rw [(State.releasePass_changes _).timer (by simp [passParts])]
  change (State.planBoundary _).timer.timeBase = _
  rw [(State.planBoundary_changes _).timer (by simp)]

theorem State.startRun_timeBase (s : State) : s.startRun.timer.timeBase = s.timer.timeBase := by
  unfold State.startRun
  rw [State.startTimer_timeBase, (State.copyHeader_changes _).timer (by simp), State.raiseAll_timer]

theorem State.leaveParted_timer (s : State) (p : Port) : (s.leaveParted p).timer = s.timer := by
  unfold State.leaveParted State.leaveReports
  rw [State.modRpt_timer, (State.leaveReceive_changes _ p).timer (by simp), (State.leaveLanes_changes _ p).timer (by simp),
    (State.leaveShadow_changes _ p).timer (by simp), (State.leavePlan_changes _ p).timer (by simp), State.raiseAll_timer,
    State.setPort_timer]

theorem State.leave_timeBase (s : State) (p : Port) : (s.leave p).timer.timeBase = s.timer.timeBase := by
  rw [State.leave_eq, State.endRunIfEmpty]
  split
  · change (s.leaveParted p).timer.timeBase = _
    rw [State.leaveParted_timer]
  · rw [State.leaveParted_timer]

theorem State.resetPort_timer (s : State) (p : Port) : (s.resetPort p).timer = (s.resetMembership p).timer := by
  simp [State.resetPort, State.clearBlockCounters]

theorem State.resetMembership_timeBase (s : State) (p : Port) :
    (s.resetMembership p).timer.timeBase = s.timer.timeBase := by
  unfold State.resetMembership
  split
  · exact s.leave_timeBase p
  · rfl
  · rfl
  · rfl

/-- While REFCLK is stopped, what is not a happening of RESET_N keeps the time base. -/
theorem exec_timeBase_of_stopped {i : Instr} (stopped : s.refclk = false) (other : i.isReset = false)
    (runs : exec i s = .next t) : t.timer.timeBase = s.timer.timeBase := by
  have reads := timeBaseIs_reads s.timer.timeBase
  cases touched : touches i [.timer] with
  | false => exact reads.exec_untouched touched runs rfl
  | true =>
    cases i with
    | resetNAssert | resetNRelease _ => cases other
    | slotStart | leaseExpiry _ _ | syncOutPulseEnd =>
      simp only [exec, execSlotStart, execLeaseExpiry, execSyncOutPulseEnd, stopped, Bool.not_false, Bool.or_true,
        Bool.true_or, if_true] at runs
      cases runs
      rfl
    | ready p b =>
      refine reads.exec_command (by simp) rfl runs rfl fun _ => ?_
      rw [actOf, ready_eq]
      refine checked_keeps (law := State.timeBaseIs s.timer.timeBase) rfl fun _ => ?_
      have marked : (s.markReady p).timer.timeBase = s.timer.timeBase := by
        unfold State.markReady
        split <;> rfl
      change State.timeBaseIs _ (if _ then _ else _)
      split
      · exact (State.startRun_timeBase _).trans marked
      · exact marked
    | leave p b =>
      refine reads.exec_command (by simp) rfl runs rfl fun _ => ?_
      rw [actOf, leave_act_eq]
      exact checked_keeps (law := State.timeBaseIs s.timer.timeBase) rfl fun _ => s.leave_timeBase p
    | portReset p b =>
      refine reads.exec_command (by simp) rfl runs rfl fun _ => ?_
      rw [actOf, portReset_eq]
      refine checked_keeps (law := State.timeBaseIs s.timer.timeBase) rfl fun _ => ?_
      exact (congrArg Timer.timeBase (s.resetPort_timer p)).trans (s.resetMembership_timeBase p)
    | _ => exact (Bool.false_ne_true touched).elim

end

/-- Settles O5: while RESET_N is low no part but a CS_N and REFCLK changes; while REFCLK is stopped no happening falls due
and no command moves the time base. -/
theorem resetAssertAndRefclkStopHoldTime : Obligations.ResetAssertAndRefclkStopHoldTime := by
  unfold Obligations.ResetAssertAndRefclkStopHoldTime
  refine ⟨fun s => ⟨_, rfl, rfl, rfl, fun p => ⟨PerPort.get_ofFn _ p, ?_⟩, ?_⟩, fun i s t low other runs => ?_,
    fun s t low empty runs => ?_, fun s => rfl, fun s => rfl, fun i s t stopped other runs => ?_,
    fun s t stopped empty runs => ?_⟩
  · exact State.miso_of_silenced ((State.live_eq_false _ p).2 (.inl rfl))
  · exact fun x hx => by cases x <;> first | rfl | simp at hx
  · have changes := exec_of_reset low other runs
    have held : t.resetLow = true := (changes.resetLow (by simp)).trans low
    exact ⟨held, changes.timer (by simp), fun p => ⟨by rw [changes.att (by simp)],
      State.miso_of_silenced ((t.live_eq_false p).2 (.inl held))⟩⟩
  · rw [step_of_empty s empty, State.idle_of_reset low] at runs
    cases runs
    exact ⟨low, rfl⟩
  · exact exec_timeBase_of_stopped stopped other runs
  · rw [step_of_empty s empty] at runs
    cases runs
    exact State.idle_timer_of_stopped stopped

end Sys2Proof.Machine
end

section
/-! PROOFS. Events, counters and the proposal of a plan (09_attention_events_and_counters.md, R137 to R144;
04_plan_proposals.md, R62, R63; 03_calendar_banks.md, R55). -/

namespace Sys2Proof.Machine

open Sys2Proof

/-- Settles O35: a raise latches or renews, and the line follows. -/
theorem raiseLatchesOrRenews : Obligations.RaiseLatchesOrRenews := by
  unfold Obligations.RaiseLatchesOrRenews
  intro s k p a a'
  have raised : a' = a.raise k := (PerPort.get_modify s.att p p _).trans (if_pos rfl)
  rw [raised]
  refine ⟨s.raise_changes k p, fun q other => by simp [other], fun j => a.raise_latched k j, fun j => a.raise_renewed k j,
    a.raise_mask k, a.raise_snapshot k, a.raise_nextSnapshot k, ?_⟩
  rw [Att.raise_attnLow, Att.attention_iff]

/-! ## GET_EVENTS and SET_EVENT_MASK -/

section

variable (s : State) (p : Port)

/-- The GET_EVENTS response. -/
def Att.snapshotBytes (a : Att) : List Byte :=
  a.nextSnapshot :: eventSetBytes a.latched ++ eventSetBytes a.renewed ++ eventSetBytes a.mask

theorem getEvents_eq (b : List Byte) : getEvents s p b = checked s [(decide (b = []), .badLength)]
    (reply (s.modAtt p Att.takeSnapshot) .ok (s.att.get p).snapshotBytes) := by
  match b with
  | _ :: _ => rfl
  | [] => rfl

theorem exec_getEvents (b : List Byte) :
    exec (.getEvents p b) s = command (.getEvents p b) p s fun s => getEvents s p b := rfl

/-- The mask that SET_EVENT_MASK carries. -/
def maskAt (b : List Byte) : EventSet := BitVec.ofNat 12 (halfAt b 0)

/-- R142: SET_EVENT_MASK is its checks in order and then the write of the mask. -/
theorem setEventMask_eq (b : List Byte) : setEventMask s p b =
    checked s [(decide (b.length = 2), .badLength), (decide (byteAt b 1 < 16), .badArgument)]
      (reply (s.modAtt p fun a => a.setMask (maskAt b)) .ok (eventSetBytes (maskAt b))) := by
  match b with
  | [] | [_] | _ :: _ :: _ :: _ => exact (checked_badLength (by simp)).symm
  | [lo, hi] =>
    have length : decide ([lo, hi].length = 2) = true := rfl
    have high : byteAt [lo, hi] 1 = hi.toNat := rfl
    rw [checked_cons, if_pos length, checked_cons, checked_nil, setEventMask, eventSetOf_eq, high]
    by_cases low : hi.toNat < 16
    · rw [if_pos low, if_pos (decide_eq_true low)]
      rfl
    · rw [if_neg low, decide_eq_false low, if_neg Bool.false_ne_true]

theorem exec_setEventMask (b : List Byte) :
    exec (.setEventMask p b) s = command (.setEventMask p b) p s fun s => setEventMask s p b := rfl

/-- R142, R178: the mask of a payload of two bytes in range is that payload. -/
theorem eventSetBytes_maskAt {b : List Byte} (length : b.length = 2) (low : byteAt b 1 < 16) :
    eventSetBytes (maskAt b) = b := by
  match b, length with
  | [lo, hi], _ =>
    refine (eventSetOf_eq_some.1 ?_).symm
    rw [eventSetOf_eq, if_pos (show hi.toNat < 16 from low)]
    rfl

theorem maskAt_toNat {b : List Byte} (low : byteAt b 1 < 16) : (maskAt b).toNat = halfAt b 0 := by
  have first : byteAt b 0 < 256 := (b.getD 0 0).isLt
  rw [maskAt, BitVec.toNat_ofNat, halfAt, Nat.zero_add, Nat.mod_eq_of_lt (by omega)]

end

/-- Settles O36: GET_EVENTS takes the snapshot it answers, SET_EVENT_MASK writes the mask it carries. -/
theorem eventsAreReadAndMasked : Obligations.EventsAreReadAndMasked := by
  unfold Obligations.EventsAreReadAndMasked
  intro s p payload a
  refine ⟨fun ht => ⟨fun long => ?_, fun short => ?_⟩, fun ht => ?_⟩
  · have reads := getEvents_eq s p payload
    rw [decide_eq_false long] at reads
    exact justAnswers_of_act (exec_getEvents s p payload) ht reads
  · subst short
    obtain ⟨runs, answers, changes⟩ := answers_reply_of_act (exec_getEvents s p []) ht (getEvents_eq s p [])
      (s.modAtt_changes p _) (by simp)
    refine ⟨_, _, runs, answers, changes, fun q other => by simp [other], rfl, rfl, halfAt_of_eventSet_bytes rfl rfl,
      halfAt_of_eventSet_bytes rfl rfl, halfAt_of_eventSet_bytes rfl rfl, ?_⟩
    exact (PerPort.get_modify s.att p p _).trans (if_pos rfl)
  · have masks := setEventMask_eq s p payload
    split
    next st failing => exact justAnswers_of_failing (exec_setEventMask s p payload) ht masks failing
    next passing =>
      have acts := masks.trans (checked_of_none passing _)
      have length : payload.length = 2 := of_decide_eq_true (passes_of_none passing (st := .badLength) (by simp))
      have low : byteAt payload 1 < 16 := of_decide_eq_true (passes_of_none passing (st := .badArgument) (by simp))
      rw [eventSetBytes_maskAt length low] at acts
      obtain ⟨runs, answers, changes⟩ :=
        answers_reply_of_act (exec_setEventMask s p payload) ht acts (s.modAtt_changes p _) (by simp)
      have masked : ((s.modAtt p fun a => a.setMask (maskAt payload)).answer p (.reply .ok payload)).att.get p =
          a.setMask (maskAt payload) := (PerPort.get_modify s.att p p _).trans (if_pos rfl)
      refine ⟨_, maskAt payload, runs, answers, changes, fun q other => by simp [other], maskAt_toNat low, ?_, ?_⟩
      · rw [masked]
        rfl
      · rw [masked]
        exact Att.attention_iff { a with mask := maskAt payload }

/-! ## READ_COUNTERS -/

section

variable (s : State) (p : Port)

theorem portOf_of_named {x : Byte} {q : Port} (named : x.toNat = q.toNat) : portOf x = some q := by
  rw [portOf_eq_some, ← BitVec.toNat_inj, portByte_toNat, named]

theorem counterActionOf_eq (x : Byte) :
    counterActionOf x = if x.toNat ≤ 1 then some (if x.toNat = 0 then .keep else .clear) else none := by
  simp only [counterActionOf, Byte.eq_zero_iff, Byte.eq_one_iff]
  by_cases zero : x.toNat = 0
  · simp [zero]
  · by_cases one : x.toNat = 1
    · simp [one]
    · rw [if_neg zero, if_neg one, if_neg (by omega)]

/-- The checks of READ_COUNTERS for port `q`. -/
def countersChecks (q : Port) (b : List Byte) : List (Bool × Status) :=
  [(decide (b.length = 2), .badLength), (decide (byteAt b 0 < 4 ∧ byteAt b 1 ≤ 1), .badArgument),
    (byteAt b 1 == 0 || q == p, .notOwner)]

/-- R144: READ_COUNTERS is its checks in order, then the counters of the port named, which CLEAR then zeroes. -/
theorem readCounters_eq {q : Port} {b : List Byte} (named : byteAt b 0 < 4 → byteAt b 0 = q.toNat) :
    readCounters s p b = checked s (countersChecks p q b)
      (reply (if byteAt b 1 = 0 then s else s.clearCounters p) .ok (countersBytes s q)) := by
  match b with
  | [] | [_] | _ :: _ :: _ :: _ => exact (checked_badLength (by simp)).symm
  | [x, y] =>
    have length : decide ([x, y].length = 2) = true := rfl
    have port : byteAt [x, y] 0 = x.toNat := rfl
    have action : byteAt [x, y] 1 = y.toNat := rfl
    rw [port] at named
    rw [countersChecks, checked_cons, if_pos length, checked_cons, port, action, readCounters, counterActionOf_eq]
    by_cases inRange : x.toNat < 4 ∧ y.toNat ≤ 1
    · rw [decide_eq_true inRange, if_pos rfl, portOf_of_named (named inRange.1), if_pos inRange.2, checked_cons,
        checked_nil]
      by_cases keep : y.toNat = 0
      · simp [keep]
      · rw [if_neg keep, if_neg keep]
        by_cases own : q = p <;> simp [keep, own]
    · rw [decide_eq_false inRange, if_neg Bool.false_ne_true]
      rcases not_and_or.1 inRange with port | action
      · rw [(portOf_eq_none x).2 (by omega)]
      · rw [if_neg action]
        cases portOf x <;> rfl

theorem exec_readCounters (b : List Byte) :
    exec (.readCounters p b) s = command (.readCounters p b) p s fun s => readCounters s p b := rfl

end

/-- Settles O38: READ_COUNTERS answers the counters and, for CLEAR, zeroes them. -/
theorem readCountersReadsAndClears : Obligations.ReadCountersReadsAndClears := by
  unfold Obligations.ReadCountersReadsAndClears
  intro s p q payload ht named
  have reads := readCounters_eq s p named
  split
  next st failing => exact justAnswers_of_failing (exec_readCounters s p payload) ht reads failing
  next passing =>
    have acts := reads.trans (checked_of_none passing _)
    refine ⟨_, countersBytes s q, (exec_readCounters s p payload).trans ((command_takes ht).trans (by rw [acts])), ?_,
      rfl, portByte_toNat q, halfAt_of_half_bytes rfl rfl, halfAt_of_half_bytes rfl rfl, halfAt_of_half_bytes rfl rfl,
      halfAt_of_half_bytes rfl rfl, halfAt_of_half_bytes rfl rfl, halfAt_of_half_bytes rfl rfl,
      halfAt_of_half_bytes rfl rfl, halfAt_of_half_bytes rfl rfl, halfAt_of_half_bytes rfl rfl,
      halfAt_of_half_bytes rfl rfl, fun keep => ?_, fun clear => ?_⟩
    · refine congrArg Link.answer (PerPort.get_modify _ p p _ |>.trans (if_pos rfl)) |>.trans ?_
      change some (Formed.mk _ (State.inRun (if _ then _ else _))) = _
      split <;> rfl
    · rw [if_pos keep]
      exact ⟨s.answer_changes p _, answers_answer s p _⟩
    · rw [if_neg (by omega)]
      refine ⟨?_, fun r other => by simp [reply, other, State.clearCounters, State.clearBlockCounters], ?_, rfl, rfl, rfl⟩
      · exact fun x hx => by cases x <;> first | rfl | simp at hx
      · simp [reply, State.clearCounters, State.clearBlockCounters, Link.clearCounters]

end Sys2Proof.Machine
end

section
/-! PROOFS. PROPOSE and the validation of the shadow (04_plan_proposals.md, R60, R62, R63; 03_calendar_banks.md, R55). -/

namespace Sys2Proof.Machine

open Sys2Proof

/-! ## The first bad entry of the shadow -/

section

variable (s : State)

theorem Bank.indexed_eq (b : Bank) : b.indexed = (List.finRange 256).map fun i => (i, b.entries.at i) := by
  have entries : b.entries.toList = (List.finRange 256).map b.entries.at := by
    refine List.ext_getElem (by simp) fun i h _ => ?_
    simp [Tbl.at, Vector.get_eq_getElem]
  rw [Bank.indexed, entries, List.zip_map_right, List.zip_eq_zipWith, List.zipWith_self, List.map_map]
  rfl

/-- R55: what makes a shadow entry bad. -/
theorem State.badEntry_iff (i : EntryId) : s.badEntry i (s.shadowEntry i) = true ↔ s.BadAt i := by
  unfold State.badEntry State.BadAt
  cases (s.shadowEntry i).release with
  | none => simp
  | some r => simp [or_assoc]

theorem State.firstBad_eq : s.firstBad = Fin.find? fun i => s.badEntry i (s.shadowEntry i) := by
  rw [Fin.find?_eq_find?_finRange, State.firstBad, Bank.indexed_eq, List.find?_map, Option.map_map]
  exact Option.map_id'

theorem State.firstBad_eq_some {i : EntryId} :
    s.firstBad = some i ↔ s.BadAt i ∧ ∀ j, j < i → ¬ s.BadAt j := by
  rw [State.firstBad_eq, Fin.find?_eq_some_iff, State.badEntry_iff]
  simp only [← State.badEntry_iff, Bool.not_eq_true]

theorem State.firstBad_eq_none : s.firstBad = none ↔ ∀ i, ¬ s.BadAt i := by
  rw [State.firstBad_eq, Fin.find?_eq_none_iff]
  simp only [← State.badEntry_iff, Bool.not_eq_true]

end

/-! ## PROPOSE -/

section

variable (s : State) (p : Port)

/-- The checks common to members, before those of the Plan Coordinator. -/
def memberChecks (b : List Byte) : List (Bool × Status) :=
  [(decide (b = []), .badLength), (s.inRun, .wrongState), (s.online p, .notMember)]

/-- The PROPOSE response for the proposal it opens. -/
def Proposal.openedBytes (r : Proposal) : List Byte :=
  [r.number, portSetByte r.voters, byteOf r.remaining, proposalStateCode (some r)]

/-- R62, R63: what PROPOSE does with a valid shadow, and what with a bad entry. -/
def State.proposeValid : State × Answer :=
  s.firstBad.elim (reply (s.openProposal p) .ok (s.newProposal p).openedBytes)
    fun i => reply s .planInvalid [byteOf i.val]

/-- R62, R63: PROPOSE is its checks in order, then the answer of a standing proposal or the validation of the shadow. -/
theorem propose_eq (b : List Byte) : propose s p b = checked s (memberChecks s p b)
    (if s.plan.proposal.isNone then s.proposeValid p else reply s .planBusy s.plan.summary) := by
  match b with
  | _ :: _ => rfl
  | [] =>
    have length : decide (([] : List Byte) = []) = true := rfl
    rw [memberChecks, checked_cons, if_pos length, checked_member, propose, checked_nil, State.proposeValid]
    congr 1
    cases s.plan.proposal with
    | some r => rfl
    | none => cases s.firstBad <;> rfl

theorem exec_propose (b : List Byte) :
    exec (.propose p b) s = command (.propose p b) p s fun s => propose s p b := rfl

/-- R63: the voters of a proposal are the other ONLINE ports. -/
theorem State.newProposal_voters :
    PortSet.toList (s.newProposal p).voters = Port.all.filter fun q => q != p && s.online q :=
  List.filter_congr fun q _ => PerPort.get_ofFn _ q

theorem State.newProposal_state :
    (s.newProposal p).state = if (Port.all.filter fun q => q != p && s.online q) = [] then .accepted else .opened := by
  rw [← s.newProposal_voters p]
  rfl

theorem State.openProposal_plan : (s.openProposal p).plan = { s.plan with
    proposal := some (s.newProposal p), nextNumber := nextNumber s.plan.nextNumber } := by
  simp [State.openProposal]

/-- R63: PLAN_OPENED is raised once to each voter. -/
theorem State.openProposal_raises :
    RaisedTo s (s.openProposal p) .planOpened (Port.all.filter fun q => q != p && s.online q) := by
  rw [← s.newProposal_voters p]
  exact State.raiseAll_att .planOpened _ { s with plan := { s.plan with
    proposal := some (s.newProposal p), nextNumber := nextNumber s.plan.nextNumber } } (Port.nodup_all.filter _)

end

/-- Settles O43: PROPOSE is its checks in order, and a valid shadow is proposed to the other ONLINE ports. -/
theorem proposeOpensProposal : Obligations.ProposeOpensProposal := by
  unfold Obligations.ProposeOpensProposal
  intro s p b ht voters
  have proposes := propose_eq s p b
  have checks : ∀ pass : Bool, firstFailing [(decide (b = []), .badLength), (s.inRun, .wrongState),
      (s.online p, .notMember), (pass, .planBusy)] =
      (firstFailing (memberChecks s p b)).or (firstFailing [(pass, .planBusy)]) :=
    fun pass => firstFailing_append (memberChecks s p b) [(pass, .planBusy)]
  rw [checks]
  cases member : firstFailing (memberChecks s p b) with
  | some st =>
    have known := firstFailing_mem member
    dsimp only [Option.or]
    rw [if_neg (by rintro rfl; simp [memberChecks] at known)]
    exact justAnswers_of_failing (exec_propose s p b) ht proposes member
  | none =>
    rw [checked_of_none member] at proposes
    cases standing : s.plan.proposal.isNone with
    | false =>
      rw [standing] at proposes
      exact justAnswers_of_act (exec_propose s p b) ht proposes
    | true =>
      rw [standing, if_pos rfl, State.proposeValid] at proposes
      refine ⟨fun i bad first => ?_, fun valid => ?_⟩
      · rw [s.firstBad_eq_some.2 ⟨bad, first⟩] at proposes
        exact justAnswers_of_act (exec_propose s p b) ht proposes
      · rw [s.firstBad_eq_none.2 valid] at proposes
        obtain ⟨runs, answers, changes⟩ :=
          answers_reply_of_act (exec_propose s p b) ht proposes (s.openProposal_changes p) (by simp)
        refine ⟨_, (s.newProposal p).voters, _, runs, answers, changes, fun q => ?_, ?_, s.openProposal_raises p, rfl, rfl,
          portSetByte_bit _, byteOf_toNat _, ?_⟩
        · rw [← PortSet.mem_toList, State.newProposal_voters]
        · rw [State.answer_plan, State.openProposal_plan, ← s.newProposal_state p]
          rfl
        · refine (proposalStateCode_some (s.newProposal p)).trans ?_
          rw [State.newProposal_state]
          by_cases alone : voters = []
          · rw [if_pos alone, if_neg (by simp), if_pos alone]
          · rw [if_neg alone, if_pos rfl, if_neg alone]

end Sys2Proof.Machine
end

section
/-! PROOFS. The release of RESET_N (10_membership_and_start_up.md, R148 and each block's reset rule). -/

namespace Sys2Proof.Machine

open Sys2Proof

/-- Settles O4: each block's reset values, read field by field. -/
theorem resetReleaseSetsResetValues : Obligations.ResetReleaseSetsResetValues := by
  unfold Obligations.ResetReleaseSetsResetValues
  intro straps s
  have banks : ∀ bk, Cal.reset.bank bk = Bank.reset := fun bk => by cases bk <;> rfl
  refine ⟨_, rfl, rfl, rfl, rfl, fun p => ⟨PerPort.get_ofFn _ p, PerPort.get_fill _ p⟩, fun d => Tbl.at_fill _ d, ?_, rfl,
    fun p => ⟨PerPort.get_fill _ p, PerPort.get_fill _ p⟩, fun l => Tbl.at_fill _ l, rfl, fun bk => ?_, rfl, rfl,
    fun p => ?_, rfl⟩
  · change (Mst.reset s.mst.pool).free = List.finRange 512
    rw [Mst.reset]
  · dsimp only
    rw [banks]
    exact ⟨rfl, fun i => Tbl.at_fill _ i⟩
  · refine ⟨by cases p <;> rfl, fun n => ?_, by cases p <;> rfl, by cases p <;> rfl, PerPort.get_fill _ p,
      PerPort.get_ofFn _ p⟩
    dsimp only
    rw [PerPort.get_fill]
    exact Tbl.at_fill _ n

end Sys2Proof.Machine
end

section
/-! PROOFS. The law of the links (11_host_link_protocol.md, 11.1, 11.2, 11.4): every step keeps every link lawful. -/

namespace Sys2Proof.Machine

open Sys2Proof

/-! ## What a command answers -/

/-- A block answers with a status and a payload, not with a stored response. -/
def Replies (a : State × Answer) : Prop := ∃ st b, a.2 = .reply st b

section

variable {s : State} {a b : State × Answer}

theorem replies_reply (s : State) (st : Status) (b : List Byte) : Replies (reply s st b) := ⟨st, b, rfl⟩

theorem replies_refuse (s : State) (st : Status) : Replies (refuse s st) := ⟨st, [], rfl⟩

theorem Replies.ite {c : Prop} [Decidable c] (ha : Replies a) (hb : Replies b) : Replies (if c then a else b) := by
  split
  · exact ha
  · exact hb

theorem Replies.checked {checks : List (Bool × Status)} (h : Replies a) : Replies (checked s checks a) := by
  unfold Machine.checked
  split
  · exact replies_refuse s _
  · exact h

theorem Replies.checkedSummary {checks : List (Bool × Status)} (h : Replies a) : Replies (checkedSummary s checks a) := by
  unfold Machine.checkedSummary
  split
  · exact replies_reply s _ _
  · exact h

theorem replies_replyContent (s : State) (p : Port) (n : SlotId) (d : DescId) : Replies (replyContent s p n d) := by
  unfold replyContent
  split <;> exact replies_reply s _ _

theorem Replies.onHeld {p : Port} {n : SlotId} {act : SlotId → Lease → State × Answer} (h : ∀ n l, Replies (act n l)) :
    Replies (s.onHeld p n act) := by
  unfold State.onHeld
  cases ((s.rx.get p).slots.at n).lease with
  | none => exact replies_refuse s _
  | some l => exact h n l

theorem replies_fetchHead (s : State) (p : Port) : Replies (s.fetchHead p) := by
  unfold State.fetchHead
  split
  · exact replies_replyContent _ p _ _
  · exact replies_refuse s _

theorem replies_allocate (s : State) (a : Allocation) : Replies (s.allocate a) := by
  unfold State.allocate
  split
  · exact replies_refuse _ _
  · exact replies_reply _ _ _

theorem replies_writeParams (s : State) (p : Port) (w : Params) : Replies (s.writeParams p w) :=
  Replies.ite (replies_reply _ _ _) (replies_reply _ _ _)

theorem replies_writeDeadline (s : State) (n : Nat) : Replies (s.writeDeadline n) :=
  Replies.ite (replies_reply _ _ _) (replies_reply _ _ _)

theorem exists_handle (b : List Byte) : ∃ (n : SlotId) (g : BitVec 4), byteAt b 0 < 64 → byteAt b 0 = 16 * n.val + g.toNat := by
  refine ⟨Fin.ofNat 4 (byteAt b 0 / 16), BitVec.ofNat 4 (byteAt b 0), fun low => ?_⟩
  rw [Fin.val_ofNat, BitVec.toNat_ofNat]
  omega

theorem exists_port (b : List Byte) : ∃ q : Port, byteAt b 0 < 4 → byteAt b 0 = q.toNat := by
  cases h : portOf (b.getD 0 0) with
  | none => exact ⟨.p0, fun low => absurd ((portOf_eq_none _).1 h) (by simpa [byteAt] using low)⟩
  | some q => exact ⟨q, fun _ => by rw [byteAt, portOf_eq_some.1 h, portByte_toNat]⟩

/-- R175: REPEAT alone is answered with a stored response. -/
theorem actOf_replies (i : Instr) (s : State) (other : ∀ p b, i ≠ .repeatLast p b) : Replies (actOf i s) := by
  cases i with
  | repeatLast p b => exact absurd rfl (other p b)
  | status p b => cases b <;> exact ⟨_, _, rfl⟩
  | portReset p b => rw [actOf, portReset_eq]; exact (replies_reply _ _ _).checked
  | readCounters p b =>
    obtain ⟨q, named⟩ := exists_port b
    rw [actOf, readCounters_eq s p named]
    exact (replies_reply _ _ _).checked
  | setQuota p b => rw [actOf, setQuota_eq]; exact (replies_writeParams s p _).checked
  | setRxq p b => rw [actOf, setRxq_eq]; exact (replies_writeParams s p _).checked
  | setLease p b => rw [actOf, setLease_eq]; exact (replies_writeParams s p _).checked
  | setDeadline p b => rw [actOf, setDeadline_eq]; exact (replies_writeDeadline s _).checked
  | setFrame p b => rw [actOf, setFrame_eq]; exact (replies_reply _ _ _).checked
  | ready p b => rw [actOf, ready_eq]; exact (replies_reply _ _ _).checked
  | unready p b => rw [actOf, unready_eq]; exact (replies_reply _ _ _).checked
  | join p b => rw [actOf, join_eq]; exact (replies_reply _ _ _).checked
  | leave p b => rw [actOf, leave_act_eq]; exact (replies_reply _ _ _).checked
  | openLane p b => rw [actOf, openLane_eq]; exact (replies_reply _ _ _).checked
  | closeLane p b => rw [actOf, closeLane_eq]; exact (replies_reply _ _ _).checked
  | purgeLane p b => rw [actOf, purgeLane_eq]; exact (replies_reply _ _ _).checked
  | laneInfo p b => rw [actOf, laneInfo_eq]; exact (replies_reply _ _ _).checked
  | send p b =>
    rw [actOf, send_eq]
    refine Replies.checked ?_
    cases (s.laneNo (byteAt b 0)).settings with
    | none => exact replies_refuse s _
    | some t => exact replies_allocate s _
  | fetch p b => rw [actOf, fetch_eq]; exact (replies_fetchHead s p).checked
  | reread p b =>
    obtain ⟨n, g, named⟩ := exists_handle b
    rw [actOf, reread_eq s p named]
    exact (Replies.onHeld fun n l => replies_replyContent s p n l.desc).checked
  | ack p b =>
    obtain ⟨n, g, named⟩ := exists_handle b
    rw [actOf, ack_eq s p named]
    exact (Replies.onHeld fun n l => replies_reply _ _ _).checked
  | returnLease p b =>
    obtain ⟨n, g, named⟩ := exists_handle b
    rw [actOf, returnLease_eq s p named]
    exact (Replies.onHeld fun n l => replies_reply _ _ _).checked
  | getReport p b =>
    rw [actOf, getReport_eq]
    refine Replies.checked ?_
    cases (s.rpt.get p).queue <;> exact ⟨_, _, rfl⟩
  | readEntry p b => rw [actOf, readEntry_eq]; exact (replies_reply _ _ _).checked
  | claim p b => rw [actOf, claim_eq]; exact ((replies_reply _ _ _).ite (replies_reply _ _ _)).checked
  | writeEntry p b => rw [actOf, writeEntry_eq]; exact (replies_reply _ _ _).checked
  | clearEntry p b => rw [actOf, clearEntry_eq]; exact (replies_reply _ _ _).checked
  | disown p b => rw [actOf, disown_eq]; exact (replies_reply _ _ _).checked
  | readHeader p b => rw [actOf, readHeader_eq]; exact (replies_reply _ _ _).checked
  | propose p b =>
    rw [actOf, propose_eq]
    refine (Replies.ite ?_ (replies_reply _ _ _)).checked
    unfold State.proposeValid
    cases s.firstBad <;> exact ⟨_, _, rfl⟩
  | vote p b => rw [actOf, vote_eq]; exact (replies_reply _ _ _).checkedSummary
  | withdraw p b => rw [actOf, withdraw_eq]; exact (replies_reply _ _ _).checkedSummary
  | planStatus p b =>
    cases b with
    | nil => exact (replies_refuse _ _).ite (replies_reply _ _ _)
    | cons x b => exact replies_refuse _ _
  | getEvents p b => rw [actOf, getEvents_eq]; exact (replies_reply _ _ _).checked
  | clearEvents p b =>
    rcases b with _ | ⟨x, _ | ⟨y, b⟩⟩
    · exact replies_refuse _ _
    · rw [actOf, clearEvents]
      split
      · exact replies_refuse _ _
      · exact (replies_reply _ _ _).ite (replies_reply _ _ _)
    · exact replies_refuse _ _
  | setEventMask p b => rw [actOf, setEventMask_eq]; exact (replies_reply _ _ _).checked
  | _ => exact replies_refuse s _

end

/-! ## Which ports are DISABLED -/

section

variable {s t u : State} {p : Port}

/-- No port becomes DISABLED. -/
def EnabledStay (s t : State) : Prop := ∀ q, t.portState q = .disabled → s.portState q = .disabled

theorem EnabledStay.of_mbc (h : t.mbc = s.mbc) : EnabledStay s t := fun q off => by
  rwa [State.portState, h] at off

theorem EnabledStay.trans (h : EnabledStay s t) (h' : EnabledStay t u) : EnabledStay s u := fun q off => h q (h' q off)

theorem enabledStay_setPort (s : State) (p : Port) {st : PortState} (enabled : st = .disabled → s.portState p = .disabled) :
    EnabledStay s (s.setPort p st) := fun q off => by
  rw [State.portState_setPort] at off
  split at off
  next own => exact own ▸ enabled off
  · exact off

theorem enabledStay_clearReady (s : State) : EnabledStay s s.clearReady := fun q off => by
  rw [s.clearReady_portState] at off
  split at off
  · cases off
  · exact off

theorem enabledStay_startRun (s : State) : EnabledStay s s.startRun := fun q off => by
  rw [s.startRun_portState] at off
  split at off
  · cases off
  · exact off

theorem enabledStay_leave (s : State) (p : Port) : EnabledStay s (s.leave p) := fun q off => by
  rw [s.leave_portState] at off
  split at off
  · cases off
  · exact off

theorem enabledStay_markReady (s : State) (p : Port) : EnabledStay s (s.markReady p) := by
  unfold State.markReady
  split
  · exact enabledStay_setPort s p (by simp)
  · exact .of_mbc rfl

theorem enabledStay_resetPort (s : State) (p : Port) : EnabledStay s (s.resetPort p) := by
  refine EnabledStay.trans ?_ (.of_mbc (s.resetPort_mbc p))
  unfold State.resetMembership
  split
  · exact enabledStay_leave s p
  · exact enabledStay_setPort s p (by simp)
  · exact .of_mbc rfl
  · exact .of_mbc rfl

theorem enabledStay_writeParams (s : State) (p : Port) (w : Params) : EnabledStay s (s.writeParams p w).1 := by
  unfold State.writeParams
  split
  · exact .of_mbc rfl
  · exact fun q off => enabledStay_clearReady (s.setParams p w) q off

theorem enabledStay_writeDeadline (s : State) (n : Nat) : EnabledStay s (s.writeDeadline n).1 := by
  unfold State.writeDeadline
  split
  · exact .of_mbc rfl
  · exact fun q off => enabledStay_clearReady { s with mbc := { s.mbc with deadline := n } } q off

theorem enabledStay_writeFrame (s : State) (h : Header) : EnabledStay s (s.writeFrame h) := by
  unfold State.writeFrame State.frameInSetup
  split
  · exact .of_mbc rfl
  · split
    · exact .of_mbc rfl
    · exact fun q off => enabledStay_clearReady (s.setShadowHeader h) q off

theorem EnabledStay.checked {checks : List (Bool × Status)} {act : State × Answer} (h : EnabledStay s act.1) :
    EnabledStay s (checked s checks act).1 :=
  checked_keeps (law := EnabledStay s) (.of_mbc rfl) fun _ => h

/-- No command makes a port DISABLED. -/
theorem actOf_enabledStay (i : Instr) (s : State) : EnabledStay s (actOf i s).1 := by
  cases i with
  | setQuota p b => rw [actOf, setQuota_eq]; exact (enabledStay_writeParams s p _).checked
  | setRxq p b => rw [actOf, setRxq_eq]; exact (enabledStay_writeParams s p _).checked
  | setLease p b => rw [actOf, setLease_eq]; exact (enabledStay_writeParams s p _).checked
  | setDeadline p b => rw [actOf, setDeadline_eq]; exact (enabledStay_writeDeadline s _).checked
  | setFrame p b =>
    rw [actOf, setFrame_eq]
    exact EnabledStay.checked (enabledStay_writeFrame s _)
  | ready p b =>
    rw [actOf, ready_eq]
    refine EnabledStay.checked ?_
    change EnabledStay s (if _ then _ else _)
    split
    · exact (enabledStay_markReady s p).trans (enabledStay_startRun _)
    · exact enabledStay_markReady s p
  | unready p b =>
    rw [actOf, unready_eq]
    refine EnabledStay.checked (enabledStay_setPort s p ?_)
    split
    · simp
    · exact id
  | join p b =>
    rw [actOf, join_eq]
    refine EnabledStay.checked ((enabledStay_setPort s p (st := .online) (by simp)).trans (.of_mbc ?_))
    exact State.raiseAll_mbc _ _ _
  | leave p b => rw [actOf, leave_act_eq]; exact EnabledStay.checked (enabledStay_leave s p)
  | portReset p b => rw [actOf, portReset_eq]; exact EnabledStay.checked (enabledStay_resetPort s p)
  | _ => exact .of_mbc ((actOf_changes _ s).mbc (of_decide_eq_false rfl))

end

/-! ## Links that commands leave -/

section

variable {s t : State} {p : Port}

/-- A link that has lost at most its record and its counters. -/
def Link.Forgets (l l' : Link) : Prop :=
  l' = { l with record := l'.record, crcErrors := l'.crcErrors, abortedRequests := l'.abortedRequests, replays := l'.replays } ∧
    (l'.record = l.record ∨ l'.record = none)

theorem Link.Forgets.refl (l : Link) : l.Forgets l := ⟨rfl, .inl rfl⟩

theorem State.resetPort_link (s : State) (p : Port) : (s.resetPort p).link = s.link.modify p Link.clearRecord := by
  have membership : (s.resetMembership p).link = s.link := by
    unfold State.resetMembership
    split
    · exact (s.leave_changes p).link (by simp [leaveParts])
    · rfl
    · rfl
    · rfl
  simp [State.resetPort, State.clearBlockCounters, membership]

/-- A command takes from its own link at most the record and the counters, and nothing from the others. -/
theorem actOf_link {i : Instr} {code : Byte} {b : List Byte} (h : i.command? = some (p, code, b)) (s : State) :
    OnlyAt p s.link (actOf i s).1.link ∧ (s.link.get p).Forgets ((actOf i s).1.link.get p) := by
  have cleared : ∀ (u : State) (f : Link → Link), u.link = s.link.modify p f → (s.link.get p).Forgets (f (s.link.get p)) →
      OnlyAt p s.link u.link ∧ (s.link.get p).Forgets (u.link.get p) := by
    intro u f link forgets
    rw [link]
    exact ⟨fun q other => by simp [other], by rwa [PerPort.get_modify, if_pos rfl]⟩
  have kept : (actOf i s).1.link = s.link →
      OnlyAt p s.link (actOf i s).1.link ∧ (s.link.get p).Forgets ((actOf i s).1.link.get p) := by
    intro link
    rw [link]
    exact ⟨fun _ _ => rfl, .refl _⟩
  cases i with
  | portReset q b =>
    cases h
    rw [actOf, portReset_eq]
    refine checked_keeps (law := fun u => OnlyAt p s.link u.link ∧ (s.link.get p).Forgets (u.link.get p))
      ⟨fun _ _ => rfl, .refl _⟩ fun _ => ?_
    exact cleared _ Link.clearRecord (s.resetPort_link p) ⟨rfl, .inr rfl⟩
  | readCounters q b =>
    cases h
    obtain ⟨q, named⟩ := exists_port b
    rw [actOf, readCounters_eq s p named]
    refine checked_keeps (law := fun u => OnlyAt p s.link u.link ∧ (s.link.get p).Forgets (u.link.get p))
      ⟨fun _ _ => rfl, .refl _⟩ fun _ => ?_
    change OnlyAt p s.link (if _ then _ else _ : State).link ∧ _
    by_cases keep : byteAt b 1 = 0
    · simp only [reply, if_pos keep]
      exact ⟨fun _ _ => rfl, .refl _⟩
    · simp only [reply, if_neg keep]
      exact cleared _ Link.clearCounters rfl ⟨rfl, .inl rfl⟩
  | _ => exact kept ((actOf_changes _ s).link (of_decide_eq_false rfl))

end

/-! ## The law of one link -/

section

variable {l l' : Link} {s t : State} {p : Port}

/-- R166, R170, R173: what a link holds in every window of an enabled port. -/
def Link.Sound (l : Link) : Prop :=
  (l.window = .sending ↔ l.sending.isSome = true) ∧ (l.waiting.isSome = true → l.executing.isSome = true) ∧
  (∀ k, l.record = some k → k.response.replay = false ∧ k.response.tag = k.tag ∧
    k.code ≠ 0x02 ∧ (k.code = 0x03 → k.response.status ≠ .ok)) ∧
  ∀ r f resp, l.executing = some r → l.answer = some f → f.answer = .stored resp → r.code = 0x02

theorem linkLawful_iff (s : State) (p : Port) : s.LinkLawful p ↔
    (s.portState p = .disabled → s.link.get p = Link.reset (s.link.get p).csLow) ∧
    (s.resetLow = false → (s.link.get p).csLow = false → (s.link.get p).window = .idle) ∧ (s.link.get p).Sound := Iff.rfl

/-- Every link is lawful. -/
def State.LinksLawful (s : State) : Prop := ∀ p, s.LinkLawful p

theorem linksLawful_reads : ReadsOnly State.LinksLawful [.link, .mbc, .resetLow] := by
  intro s t same h p
  have link : t.link = s.link := same .link (by simp)
  have mbc : t.mbc = s.mbc := same .mbc (by simp)
  have low : t.resetLow = s.resetLow := same .resetLow (by simp)
  have lawful := h p
  unfold State.LinkLawful State.portState at *
  rwa [link, mbc, low]

theorem State.of_live (live : s.live p = true) : s.resetLow = false ∧ s.portState p ≠ .disabled := by
  simpa [State.live] using live

theorem State.LinksLawful.sound (h : s.LinksLawful) (p : Port) : (s.link.get p).Sound := (h p).2.2

theorem State.LinksLawful.idle (h : s.LinksLawful) (live : s.live p = true) (high : (s.link.get p).csLow = false) :
    (s.link.get p).window = .idle := (h p).2.1 (State.of_live live).1 high

/-- A link of an enabled port, with RESET_N high, may become any sound link whose window is IDLE while CS_N is high. -/
theorem State.LinksLawful.modLink (h : s.LinksLawful) (live : s.live p = true) {f : Link → Link}
    (idle : (f (s.link.get p)).csLow = false → (f (s.link.get p)).window = .idle) (sound : (f (s.link.get p)).Sound) :
    (s.modLink p f).LinksLawful := by
  intro q
  rw [linkLawful_iff]
  by_cases own : q = p
  · subst own
    have becomes : (s.modLink q f).link.get q = f (s.link.get q) := by simp
    rw [becomes]
    exact ⟨fun off => absurd off (State.of_live live).2, fun _ => idle, sound⟩
  · have stays : (s.modLink p f).link.get q = s.link.get q := by simp [own]
    rw [stays]
    exact h q

/-- The level of CS_N of a port that takes no part may be any. -/
theorem State.LinksLawful.withCs (h : s.LinksLawful) (silenced : s.live p = false) (low : Bool) :
    (s.withCs p low).LinksLawful := by
  intro q
  rw [linkLawful_iff]
  by_cases own : q = p
  · subst own
    have becomes : (s.withCs q low).link.get q = { s.link.get q with csLow := low } := by simp [State.withCs]
    obtain ⟨reset, _, sound⟩ := (linkLawful_iff s q).1 (h q)
    rw [becomes]
    refine ⟨fun off => ?_, fun high _ => ?_, sound⟩
    · rw [reset off]
      rfl
    · rcases (s.live_eq_false q).1 silenced with held | off
      · exact absurd (held.symm.trans high) (by simp)
      · rw [reset off]
        rfl
  · have stays : (s.withCs p low).link.get q = s.link.get q := by simp [State.withCs, own]
    rw [stays]
    exact h q

theorem Link.Sound.forgets (h : l.Sound) (forgets : l.Forgets l') : l'.Sound := by
  obtain ⟨same, record⟩ := forgets
  obtain ⟨sending, waiting, recorded, answer⟩ := h
  rw [same]
  refine ⟨sending, waiting, fun k held => ?_, answer⟩
  rcases record with kept | lost
  · exact recorded k (kept ▸ held)
  · simp [lost] at held

/-- R170: a sound link takes a command's answer; only a REPEAT is answered with a stored response. -/
theorem Link.Sound.answered (h : l.Sound) {f : Formed} (own : ∀ r resp, l.executing = some r → f.answer = .stored resp → r.code = 0x02) :
    Link.Sound { l with answer := some f } := by
  obtain ⟨sending, waiting, recorded, _⟩ := h
  refine ⟨sending, waiting, recorded, fun r g resp executing answered stored => own r resp executing ?_⟩
  cases answered
  exact stored

end

/-! ## Windows and requests keep a link sound -/

section

variable {l : Link} {s : State} {p : Port}

theorem Link.Sound.openWindow (h : l.Sound) (idle : l.window = .idle) : Link.Sound (Link.openWindow { l with csLow := true }) := by
  obtain ⟨sending, waiting, recorded, answer⟩ := h
  have none : l.sending.isSome = false := by
    rw [Bool.eq_false_iff]
    exact mt sending.2 (by simp [idle])
  refine ⟨?_, waiting, recorded, answer⟩
  unfold Link.openWindow
  split <;> simp [none]

theorem Link.Sound.risen (h : l.Sound) (bytes : Nat) : (l.risen bytes).Sound := by
  obtain ⟨_, waiting, recorded, answer⟩ := h
  exact ⟨by simp [Link.risen], waiting, recorded, answer⟩

theorem Link.Sound.responseSent (h : l.Sound) : Link.Sound { l with window := .done, sending := none } := by
  obtain ⟨_, waiting, recorded, answer⟩ := h
  exact ⟨by simp, waiting, recorded, answer⟩

/-- The link's own answer is sent at once. -/
theorem Link.Sound.sends (h : l.Sound) (resp : Response) (n : Half) :
    Link.Sound { l with window := .sending, sending := some resp, crcErrors := n } := by
  obtain ⟨_, waiting, recorded, answer⟩ := h
  exact ⟨by simp, waiting, recorded, answer⟩

/-- R170, R174: a request is taken by a link that executes none and has none waiting. -/
theorem Link.Sound.take (h : l.Sound) (free : l.executing = none) (r : Request) : (l.take s p r).Sound := by
  obtain ⟨sending, waiting, recorded, answer⟩ := h
  have alone : l.waiting.isSome = true → False := fun some => by simpa [free] using waiting some
  cases replay : l.replayOf r with
  | some resp =>
    rw [Link.take_replay replay]
    refine ⟨?_, fun some => (alone some).elim, recorded, fun r f resp executing => by simp at executing⟩
    by_cases awaiting : l.window = .awaiting
    · simp [awaiting]
    · simpa [awaiting] using sending
  | none =>
    rw [Link.take_new replay, State.linkAnswer_eq]
    refine ⟨sending, fun some => (alone some).elim, recorded, fun r f resp _ answered stored => ?_⟩
    dsimp only at answered
    split at answered
    · cases answered
      cases stored
    · cases answered

theorem Link.Sound.accept (h : l.Sound) (receiving : l.window = .receiving) (r : Request) : (l.accept s p r).Sound := by
  obtain ⟨sending, waiting, recorded, answer⟩ := h
  have awaits : Link.Sound { l with window := .awaiting } := by
    refine ⟨?_, waiting, recorded, answer⟩
    have none : l.sending.isSome = true → False := fun some => by simpa [receiving] using sending.2 some
    simpa using none
  cases executing : l.executing with
  | none =>
    rw [Link.accept_of_free executing]
    exact awaits.take executing r
  | some e =>
    rw [Link.accept_of_executing (by simp [executing])]
    obtain ⟨sending, _, recorded, answer⟩ := awaits
    exact ⟨sending, fun _ => by simp [executing], recorded, answer⟩

/-- R173: the record of an execution holds a response formed for its request. -/
theorem Link.Sound.note (h : l.Sound) {r : Request} {f : Formed} (executing : l.executing = some r)
    (answered : l.answer = some f) : (l.note r (s.respond p r.tag f)).Sound := by
  obtain ⟨sending, waiting, recorded, answer⟩ := h
  rw [Link.note_eq]
  refine ⟨sending, waiting, fun k held => ?_, answer⟩
  dsimp only at held
  split at held
  · exact recorded k held
  next new =>
    rw [not_or, not_and] at new
    cases held
    obtain ⟨answer', run⟩ := f
    cases answer' with
    | reply st b => exact ⟨rfl, rfl, new.1, new.2⟩
    | stored resp => exact absurd (answer r _ resp executing answered rfl) new.1

theorem Link.Sound.finish (h : l.Sound) {r : Request} {f : Formed} (executing : l.executing = some r)
    (answered : l.answer = some f) : (l.finish s p r (s.respond p r.tag f)).Sound := by
  have noted : Link.Sound (l.note r (s.respond p r.tag f)) := h.note executing answered
  cases waiting : l.waiting with
  | none =>
    rw [Link.finish_of_none waiting]
    obtain ⟨sending, _, recorded, _⟩ := noted
    have alone : (l.note r (s.respond p r.tag f)).waiting = none := by rw [Link.note_eq]; exact waiting
    refine ⟨?_, fun some => by simp [alone] at some, recorded, fun r f resp executing => by simp at executing⟩
    obtain ⟨sending, _⟩ := h
    by_cases awaiting : l.window = .awaiting
    · simp [awaiting]
    · simpa [awaiting] using sending
  | some w =>
    rw [Link.finish_of_some waiting]
    obtain ⟨sending, _, recorded, _⟩ := noted
    refine Link.Sound.take ?_ rfl w
    exact ⟨sending, fun some => (Bool.false_ne_true some).elim, recorded, fun r f resp executing => by cases executing⟩

theorem Link.take_csLow (r : Request) : (l.take s p r).csLow = l.csLow := by
  cases replay : l.replayOf r with
  | some resp => rw [Link.take_replay replay]
  | none => rw [Link.take_new replay]

theorem Link.take_idle (idle : l.window = .idle) (r : Request) : (l.take s p r).window = .idle := by
  cases replay : l.replayOf r with
  | some resp => simp [Link.take_replay replay, idle]
  | none => rw [Link.take_new replay, idle]

theorem Link.accept_csLow (r : Request) : (l.accept s p r).csLow = l.csLow := by
  unfold Link.accept
  split
  · rfl
  · exact Link.take_csLow r

/-- The end of an execution leaves CS_N alone, and an IDLE window IDLE. -/
theorem Link.finish_idle {r : Request} {resp : Response} (closed : l.csLow = false → l.window = .idle)
    (high : (l.finish s p r resp).csLow = false) : (l.finish s p r resp).window = .idle := by
  cases waiting : l.waiting with
  | none =>
    rw [Link.finish_of_none waiting, Link.note_eq] at high ⊢
    simp [closed high]
  | some w =>
    rw [Link.finish_of_some waiting, Link.note_eq] at high ⊢
    rw [Link.take_csLow] at high
    refine Link.take_idle ?_ w
    exact closed high

end

/-! ## Every step keeps the law -/

section

variable {s t : State} {i : Instr} {p : Port}

/-- R170: a command that the part takes is one that its link executes, if its link executes one. -/
theorem State.executing_of_takes {code : Byte} {b : List Byte} (h : i.command? = some (p, code, b)) (taken : s.takes i = true)
    {r : Request} (executing : (s.link.get p).executing = some r) : r.code = code := by
  simp only [State.takes, h, Bool.and_eq_true, Link.freeFor, executing, beq_iff_eq] at taken
  exact taken.2.1.1

/-- A command's answer reaches its own link alone, and only a REPEAT is answered with a stored response. -/
theorem linksLawful_command {code : Byte} {b : List Byte} (h : i.command? = some (p, code, b)) (lawful : s.LinksLawful)
    (taken : s.takes i = true) : ((actOf i s).1.answer p (actOf i s).2).LinksLawful := by
  obtain ⟨others, forgets⟩ := actOf_link h s
  obtain ⟨high, enabled⟩ := State.live_of_takes h taken
  have low : (actOf i s).1.resetLow = s.resetLow := by
    refine (actOf_changes i s).resetLow ?_
    cases i <;> exact of_decide_eq_false rfl
  intro q
  rw [linkLawful_iff]
  by_cases own : q = p
  · subst own
    have becomes : ((actOf i s).1.answer q (actOf i s).2).link.get q =
        { (actOf i s).1.link.get q with answer := some ((actOf i s).1.formed (actOf i s).2) } := by simp
    obtain ⟨_, idle, sound⟩ := (linkLawful_iff s q).1 (lawful q)
    rw [becomes]
    refine ⟨fun off => absurd (actOf_enabledStay i s q off) enabled, fun _ => ?_, (sound.forgets forgets).answered ?_⟩
    · rw [forgets.1]
      exact idle high
    · intro r resp executing stored
      rw [forgets.1] at executing
      have coded := State.executing_of_takes h taken executing
      by_cases other : ∀ p b, i ≠ .repeatLast p b
      · obtain ⟨st, b', replied⟩ := actOf_replies i s other
        rw [State.formed_eq, replied] at stored
        cases stored
      · simp only [not_forall, not_not] at other
        obtain ⟨p', b', rfl⟩ := other
        cases h
        exact coded
  · have stays : ((actOf i s).1.answer p (actOf i s).2).link.get q = s.link.get q := by
      rw [State.answer_link, PerPort.get_modify, if_neg own, others q own]
    obtain ⟨reset, idle, sound⟩ := (linkLawful_iff s q).1 (lawful q)
    rw [stays]
    exact ⟨fun off => reset (actOf_enabledStay i s q off), fun _ => idle high, sound⟩

/-- A happening of a port that takes part becomes a sound link. -/
theorem linksLawful_happening (lawful : s.LinksLawful) (port : i.port? = some p) (runs : exec i s = .next t)
    (live : s.live p = true → t.LinksLawful) : t.LinksLawful := by
  cases taking : s.live p with
  | true => exact live taking
  | false =>
    obtain ⟨low, moves⟩ := exec_of_silenced port taking
    rw [moves] at runs
    cases runs
    exact lawful.withCs taking low

/-- With CS_N low a link's window is not IDLE only if a fall opened it. -/
theorem State.LinksLawful.low_of_open (h : s.LinksLawful) (live : s.live p = true)
    (opened : (s.link.get p).window ≠ .idle) : (s.link.get p).csLow = true := by
  by_contra high
  exact opened (h.idle live (Bool.of_not_eq_true high))

/-- A link that answers by itself in a RECEIVING window stays lawful. -/
theorem State.LinksLawful.sends (h : s.LinksLawful) (live : s.live p = true) (receiving : (s.link.get p).window = .receiving)
    (resp : Response) (n : Half → Half) : (s.modLink p fun l =>
      { l with window := .sending, sending := some resp, crcErrors := n l.crcErrors }).LinksLawful :=
  h.modLink live (fun high => by simp [h.low_of_open live (by simp [receiving])] at high) ((h.sound p).sends resp _)

theorem linksLawful_requestReceived {code tag : Byte} {payload : List Byte} {crc : Half} (h : s.LinksLawful)
    (live : s.live p = true) (runs : exec (.requestReceived p code tag payload crc) s = .next t) : t.LinksLawful := by
  by_cases receiving : (s.link.get p).window = .receiving
  · rcases Nat.lt_or_ge 272 payload.length with long | short
    · rw [exec_requestReceived_of_long live receiving long] at runs
      cases runs
      exact h.sends live receiving _ id
    · by_cases bad : crc = Request.crc ⟨code, tag, payload⟩
      · rw [bad, exec_requestReceived_of_wellFormed live receiving short] at runs
        cases runs
        refine h.modLink live (fun high => ?_) ((h.sound p).accept receiving _)
        rw [Link.accept_csLow, h.low_of_open live (by simp [receiving])] at high
        cases high
      · rw [exec_requestReceived_of_badCrc live receiving short bad, State.crcFailed_eq] at runs
        cases runs
        exact State.LinksLawful.sends (s := s.raise .linkError p) h live receiving _ (counted · 1)
  · rw [exec_requestReceived_of_other receiving] at runs
    cases runs
    exact h

theorem linksLawful_executionEnd (h : s.LinksLawful) (live : s.live p = true)
    (runs : exec (.executionEnd p) s = .next t) : t.LinksLawful := by
  cases executing : (s.link.get p).executing with
  | none =>
    simp only [exec, execExecutionEnd, executing] at runs
    cases runs
    exact h
  | some r =>
    cases answered : (s.link.get p).answer with
    | none =>
      simp only [exec, execExecutionEnd, executing, answered] at runs
      cases runs
      exact h
    | some f =>
      rw [exec_executionEnd_of_answered live executing answered] at runs
      cases runs
      exact h.modLink live (Link.finish_idle (h.idle live)) ((h.sound p).finish executing answered)

/-- Every command and happening keeps every link lawful. -/
theorem linksLawful_exec (h : s.LinksLawful) (runs : exec i s = .next t) : t.LinksLawful := by
  have commands : ∀ p code b, i.command? = some (p, code, b) → t.LinksLawful := by
    intro p code b coded
    rw [exec_eq_command coded] at runs
    cases taken : s.takes i with
    | false =>
      rw [command_not_taken taken] at runs
      cases runs
      exact h
    | true =>
      rw [command_takes taken] at runs
      cases runs
      exact linksLawful_command coded h taken
  cases i with
  | resetNAssert =>
    cases runs
    exact fun q => ⟨(h q).1, fun high => (Bool.false_ne_true high.symm).elim, h.sound q⟩
  | resetNRelease straps =>
    cases runs
    intro q
    rw [linkLawful_iff]
    dsimp only
    rw [PerPort.get_ofFn]
    exact ⟨fun _ => rfl, fun _ _ => rfl, by simp [Link.Sound, Link.reset]⟩
  | refclkStop | refclkResume | slotStart | leaseExpiry _ _ | syncOutPulseEnd =>
    exact linksLawful_reads.exec_untouched rfl runs h
  | csNFall p =>
    refine linksLawful_happening h (p := p) rfl runs fun live => ?_
    cases low : (s.link.get p).csLow with
    | true =>
      rw [exec_csNFall_of_low low] at runs
      cases runs
      exact h
    | false =>
      rw [exec_csNFall_of_live live low] at runs
      cases runs
      exact h.modLink live (fun high => (Bool.false_ne_true high.symm).elim) ((h.sound p).openWindow (h.idle live low))
  | csNRise p bytes =>
    refine linksLawful_happening h (p := p) rfl runs fun live => ?_
    cases low : (s.link.get p).csLow with
    | false =>
      rw [exec_csNRise_of_high low] at runs
      cases runs
      exact h
    | true =>
      rw [exec_csNRise_of_live live low] at runs
      cases runs
      refine State.LinksLawful.modLink ?_ ?_ (fun _ => rfl) ?_
      all_goals split
      all_goals first | exact h | exact live | exact (h.sound p).risen bytes
  | lengthAbove272 p code tag n =>
    refine linksLawful_happening h (p := p) rfl runs fun live => ?_
    by_cases receiving : (s.link.get p).window = .receiving
    · rcases Nat.lt_or_ge 272 n with long | short
      · rw [exec_lengthAbove272_of_long live receiving long] at runs
        cases runs
        exact h.sends live receiving _ id
      · rw [exec_lengthAbove272_of_short short] at runs
        cases runs
        exact h
    · rw [exec_lengthAbove272_of_other receiving] at runs
      cases runs
      exact h
  | requestReceived p code tag payload crc =>
    exact linksLawful_happening h (p := p) rfl runs fun live => linksLawful_requestReceived h live runs
  | executionEnd p =>
    exact linksLawful_happening h (p := p) rfl runs fun live => linksLawful_executionEnd h live runs
  | responseSent p =>
    refine linksLawful_happening h (p := p) rfl runs fun live => ?_
    by_cases sending : (s.link.get p).window = .sending
    · rw [exec_responseSent_of_sending live sending] at runs
      cases runs
      exact h.modLink live (fun high => by simp [h.low_of_open live (by simp [sending])] at high) (h.sound p).responseSent
    · rw [exec_responseSent_of_other sending] at runs
      cases runs
      exact h
  | _ => exact commands _ _ _ rfl

end

/-- Settles O58: the law reads the links, the port states and the level of RESET_N, and every command and happening
keeps it. -/
theorem stepKeepsLinksLawful : Obligations.StepKeepsLinksLawful := by
  unfold Obligations.StepKeepsLinksLawful
  intro s t h runs
  exact linksLawful_reads.step (by simp) (by simp) (fun _ _ h => h) (fun i s t _ => linksLawful_exec) h runs

end Sys2Proof.Machine
end

section
/-! PROOFS. What each command or happening that several laws must weigh does to the state, as a rule for keeping a law: a
law that holds before holds after, if what the command does when its checks pass keeps it. -/

namespace Sys2Proof.Machine

open Sys2Proof

theorem checkedSummary_keeps {law : State → Prop} {s : State} {checks : List (Bool × Status)} {act : State × Answer}
    (h : law s) (acts : (∀ c ∈ checks, c.1 = true) → law act.1) : law (checkedSummary s checks act).1 := by
  unfold checkedSummary
  split
  · exact h
  next passing => exact acts (firstFailing_eq_none.1 passing)

section

variable {law : State → Prop} {s t : State} {p : Port} {b : List Byte}

/-! ## Leases -/

theorem State.onHeld_keeps {n : SlotId} {act : SlotId → Lease → State × Answer} (h : law s)
    (acts : ∀ l, ((s.rx.get p).slots.at n).lease = some l → law (act n l).1) : law (s.onHeld p n act).1 := by
  unfold State.onHeld
  cases held : ((s.rx.get p).slots.at n).lease with
  | none => exact h
  | some l => exact acts l held

theorem ack_keeps (h : law s) (acts : s.online p = true → ∀ n l, ((s.rx.get p).slots.at n).lease = some l →
    law ((s.endLease p n .settled).settle l.desc p .delivered)) : law (ack s p b).1 := by
  obtain ⟨n, g, named⟩ := exists_handle b
  rw [ack_eq s p named]
  refine checked_keeps h fun passing => State.onHeld_keeps h fun l held => ?_
  simp only [leaseChecks, List.forall_mem_cons] at passing
  obtain ⟨_, _, member, _⟩ := passing
  exact acts member n l held

theorem returnLease_keeps (h : law s) (acts : s.online p = true → ∀ n l pos,
    ((s.rx.get p).slots.at n).lease = some l → law (s.endWithoutAck p n l.desc .settled pos)) :
    law (returnLease s p b).1 := by
  obtain ⟨n, g, named⟩ := exists_handle b
  rw [returnLease_eq s p named]
  refine checked_keeps h fun passing => State.onHeld_keeps h fun l held => ?_
  simp only [returnChecks, List.forall_mem_cons] at passing
  obtain ⟨_, _, member, _⟩ := passing
  exact acts member n l _ held

theorem leaseExpiry_keeps {n : SlotId} (runs : exec (.leaseExpiry p n) s = .next t) (h : law s)
    (acts : ∀ l, ((s.rx.get p).slots.at n).lease = some l → law (s.expire p n l)) : law t := by
  cases runs
  split
  · exact h
  · split
    · exact h
    next l held => exact acts l held

theorem Rx.lowestFree_lease {r : Rx} {n : SlotId} (free : r.lowestFree = some n) : (r.slots.at n).lease = none := by
  simpa using List.find?_some free

theorem fetch_keeps (h : law s) (acts : s.online p = true → ∀ n d rest, ((s.rx.get p).slots.at n).lease = none →
    (s.rx.get p).queue = d :: rest → law (s.grantLease p n d)) : law (fetch s p b).1 := by
  rw [fetch_eq]
  refine checked_keeps h fun passing => ?_
  simp only [fetchChecks, List.forall_mem_cons] at passing
  obtain ⟨_, _, member, _⟩ := passing
  unfold State.fetchHead
  split
  next n d rest free head =>
    rw [replyContent_fst]
    exact acts member n d rest (Rx.lowestFree_lease free) head
  · exact h

/-! ## Lanes and entries -/

/-- R26, check 1: settings with a nonempty set of enabled destinations and a depth of 1 to 32. -/
def State.Accepts (s : State) (st : LaneSettings) : Prop :=
  PortSet.toList st.dest ≠ [] ∧ (∀ q, st.dest.get q = true → s.portState q ≠ .disabled) ∧ 1 ≤ st.depth ∧ st.depth ≤ 32

theorem State.accepts_settingsAt (dests : destsInRange b = true) (enabled : s.destsEnabled b = true)
    (modes : modesInRange b = true) : s.Accepts (settingsAt p b) := by
  obtain ⟨some, few⟩ := of_decide_eq_true dests
  obtain ⟨low, high, _⟩ := of_decide_eq_true modes
  refine ⟨fun empty => ?_, fun q named => ?_, low, high⟩
  · have none : decide (1 ≤ (b.getD 1 0).toNat) = false := by
      rw [← bne_self_eq_false ([] : List Port), ← portsOf_ne_nil _ few]
      exact congrArg (· != []) empty
    exact absurd some (by simpa [byteAt] using none)
  · have bit : byteAt b 1 / 2 ^ q.toNat % 2 = 1 := by
      simpa [settingsAt, portsOf, byteAt] using named
    have := List.all_eq_true.1 enabled q (Port.mem_all q)
    simpa [bit] using this

theorem openLane_keeps (h : law s) (acts : s.inRun = true → s.online p = true → ∀ l, (s.lane l).state = .closed →
    s.cal.names l = false → s.Accepts (settingsAt p b) → law (s.modLane l (openedLane (settingsAt p b)))) :
    law (openLane s p b).1 := by
  rw [openLane_eq]
  refine checked_keeps h fun passing => ?_
  simp only [openLaneChecks, List.forall_mem_cons] at passing
  obtain ⟨_, run, member, lane, dests, enabled, modes, state, unscheduled, _⟩ := passing
  have low : byteAt b 0 < 32 := of_decide_eq_true lane
  rw [s.laneNo_byteAt low] at state
  rw [← laneAt_val low, State.unscheduled_eq] at unscheduled
  exact acts run member _ (by simpa using state) (by simpa using unscheduled) (s.accepts_settingsAt dests enabled modes)

theorem closeLane_keeps (h : law s) (acts : ∀ l, (s.lane l).state = .opened → 
    (s.plan.proposal = none ∨ s.cal.shadow.names l = false) → law (s.modLane l (Lane.become (s.lane l).closeState))) :
    law (closeLane s p b).1 := by
  rw [closeLane_eq]
  refine checked_keeps h fun passing => ?_
  simp only [closeLaneChecks, List.forall_mem_cons] at passing
  obtain ⟨_, _, _, lane, opened, _, undrained, avoids, _⟩ := passing
  have low : byteAt b 0 < 32 := of_decide_eq_true lane
  rw [s.laneNo_byteAt low] at opened undrained ⊢
  rw [← laneAt_val low, Bank.avoids_eq] at avoids
  refine acts _ ?_ (by simpa using avoids)
  cases state : (s.lane (laneAt b 0)).state with
  | opened => rfl
  | closed => simp [state] at opened
  | draining => simp [state] at undrained

theorem purgeLane_keeps (h : law s) (acts : ∀ l, (s.lane l).state ≠ .closed → law (s.purgeClose l)) :
    law (purgeLane s p b).1 := by
  rw [purgeLane_eq]
  refine checked_keeps h fun passing => ?_
  simp only [purgeLaneChecks, List.forall_mem_cons] at passing
  obtain ⟨_, _, _, lane, opened, _⟩ := passing
  rw [s.laneNo_byteAt (of_decide_eq_true lane)] at opened
  exact acts _ (by simpa using opened)

/-- R29, R30, R10, R11: a SEND that passes its checks is refused by the Message Store, which counts it, or granted. -/
theorem send_keeps (h : law s) (refused : ∀ f, law (s.modRefusals p f))
    (acts : s.inRun = true → ∀ l t d a, (s.lane l).state = .opened → (s.lane l).settings = some t →
      (s.lane l).queue.length < t.depth → s.lowestFree = some d → a.source = p → a.lane = l → a.dest = t.dest →
      1 ≤ a.data.length → a.data.length ≤ 256 → firstFailing (s.storeChecks p a.buffers) = none →
      law (s.submitted d a)) : law (send s p b).1 := by
  rw [send_eq]
  refine checked_keeps h fun passing => ?_
  simp only [sendChecks, List.forall_mem_cons] at passing
  obtain ⟨length, run, _, lane, _, _, opened, room, _⟩ := passing
  have low : byteAt b 0 < 32 := of_decide_eq_true lane
  have lengths := of_decide_eq_true length
  rw [s.laneNo_byteAt low] at opened room ⊢
  cases settings : (s.lane (laneAt b 0)).settings with
  | none => exact h
  | some t =>
    rw [settings] at room
    change law (s.allocate (requestAt p b t)).1
    cases failing : firstFailing (s.storeChecks p (requestAt p b t).buffers) with
    | some st =>
      rw [State.allocate_of_failing s (a := requestAt p b t) failing]
      exact refused _
    | none =>
      have free := passes_of_none failing (c := (List.finRange 256).any fun d => (s.desc d).isNone) (st := .noDescriptor)
        (by simp [State.storeChecks])
      rw [← State.lowestFree_isSome] at free
      obtain ⟨d, lowest⟩ := Option.isSome_iff_exists.1 free
      rw [s.allocate_of_passing (a := requestAt p b t) failing lowest]
      have data : (requestAt p b t).data.length = b.length - 3 := List.length_drop
      exact acts run _ t d _ (by simpa using opened) settings (by simpa using room) lowest rfl rfl rfl (by omega)
        (by omega) failing

/-- R48 to R52: an entry command writes one shadow entry of the port, or makes it its own, while no proposal stands. -/
theorem writeEntry_keeps (h : law s) (acts : s.inRun = true → s.online p = true → s.plan.proposal = none → ∀ i l n,
    (s.lane l).state = .opened → (s.lane l).owner = some p → 1 ≤ n → n ≤ 4 → (s.shadowEntry i).owner = some p →
    law (s.putEntry i ⟨some ⟨l, n⟩, some p⟩)) : law (writeEntry s p b).1 := by
  rw [writeEntry_eq]
  refine checked_keeps h fun passing => ?_
  simp only [writeEntryChecks, List.forall_mem_cons] at passing
  obtain ⟨_, run, member, range, standing, own, _, owner, opened, _⟩ := passing
  obtain ⟨low, burst⟩ := of_decide_eq_true range
  rw [s.laneNo_byteAt low] at owner opened
  rw [shadowNo_byteAt] at own
  exact acts run member (by simpa using standing) _ _ _ (by simpa using opened) (by simpa using owner) burst.1 burst.2
    (by simpa using own)

theorem claim_keeps (h : law s) (acts : s.inRun = true → s.plan.proposal = none → ∀ i, (s.shadowEntry i).owner = none →
    law (s.putEntry i ⟨none, some p⟩)) : law (claim s p b).1 := by
  rw [claim_eq]
  refine checked_keeps h fun passing => ?_
  simp only [entryChecks, List.forall_mem_cons] at passing
  obtain ⟨_, run, _, standing, _⟩ := passing
  split
  next free => exact acts run (by simpa using standing) _ free
  · exact h

theorem clearEntry_keeps (h : law s) (acts : s.inRun = true → s.plan.proposal = none → ∀ i,
    (s.shadowEntry i).owner = some p → law (s.putEntry i ⟨none, some p⟩)) : law (clearEntry s p b).1 := by
  rw [clearEntry_eq]
  refine checked_keeps h fun passing => ?_
  simp only [entryChecks, List.forall_mem_cons] at passing
  obtain ⟨_, run, _, standing, own, _⟩ := passing
  exact acts run (by simpa using standing) _ (by simpa using own)

theorem disown_keeps (h : law s) (acts : s.inRun = true → s.plan.proposal = none → ∀ i,
    (s.shadowEntry i).owner = some p → law (s.putEntry i ⟨none, none⟩)) : law (disown s p b).1 := by
  rw [disown_eq]
  refine checked_keeps h fun passing => ?_
  simp only [entryChecks, List.forall_mem_cons] at passing
  obtain ⟨_, run, _, standing, own, _⟩ := passing
  exact acts run (by simpa using standing) _ (by simpa using own)

theorem setFrame_keeps (h : law s) (clears : ∀ u : State, u.inRun = false → law u → law u.clearReady)
    (acts : ∀ hd : Header, hd.inRange → (s.inRun = true → s.plan.proposal = none) → law (s.setShadowHeader hd)) :
    law (setFrame s p b).1 := by
  rw [setFrame_eq]
  refine checked_keeps h fun passing => ?_
  simp only [List.forall_mem_cons] at passing
  obtain ⟨_, _, range, standing, _⟩ := passing
  obtain ⟨few, many, long⟩ := of_decide_eq_true range
  have fits : halfAt b 2 ≤ 65535 := by
    have low := (b.getD 2 0).isLt
    have high := (b.getD 3 0).isLt
    unfold halfAt byteAt
    omega
  have written := acts ⟨halfAt b 0, halfAt b 2⟩ ⟨few, many, long, fits⟩ fun run => by simpa [run] using standing
  change law (s.writeFrame _)
  unfold State.writeFrame State.frameInSetup
  split
  · exact written
  next setup =>
    split
    · exact written
    · exact clears (s.setShadowHeader _) (Bool.eq_false_iff.2 setup) written

/-! ## Plans -/

theorem propose_keeps (h : law s) (acts : s.inRun = true → s.online p = true → s.plan.proposal = none →
    s.firstBad = none → law (s.openProposal p)) : law (propose s p b).1 := by
  rw [propose_eq]
  refine checked_keeps h fun passing => ?_
  simp only [memberChecks, List.forall_mem_cons] at passing
  obtain ⟨_, run, member, _⟩ := passing
  split
  next standing =>
    unfold State.proposeValid
    cases bad : s.firstBad with
    | none => exact acts run member (by simpa using standing) bad
    | some i => exact h
  · exact h

theorem vote_keeps (h : law s) (acts : ∀ r, s.plan.proposal = some r → r.voters.get p = true → r.yes.get p = false →
    ∀ ch, law (s.castVote r p ch)) : law (vote s p b).1 := by
  rw [vote_eq]
  refine checkedSummary_keeps h fun passing => ?_
  simp only [voteChecks, List.forall_mem_cons] at passing
  obtain ⟨_, _, _, _, _, _, voter, _⟩ := passing
  cases standing : s.plan.proposal with
  | none => exact h
  | some r =>
    change law (s.voteOn p b r)
    unfold State.voteOn
    split
    · exact h
    next unvoted => exact acts r standing (by simpa [standing] using voter) (by simpa using unvoted) _

theorem withdraw_keeps (h : law s) (acts : ∀ r, s.plan.proposal = some r → law (s.decidePlan r .withdrawnByProposer)) :
    law (withdraw s p b).1 := by
  rw [withdraw_eq]
  refine checkedSummary_keeps h fun _ => ?_
  cases standing : s.plan.proposal with
  | none => exact h
  | some r => exact acts r standing

/-! ## Setup and membership -/

/-- R152 to R154: from `s` to `t`, in SETUP, setup values in their ranges were written and the READY marks cleared. -/
structure SetupWritten (s t : State) : Prop where
  setup : s.inRun = false
  changes : ChangesOnly s t [.mbc, .att]
  exchange : t.mbc.exchange = s.mbc.exchange
  ports : ∀ q, t.portState q = if s.portState q = .ready then .offline else s.portState q
  reserves : t.reserveSum ≤ 512 ∨ ∀ q, (t.params q).reserve = (s.params q).reserve
  deadline : t.mbc.deadline = s.mbc.deadline ∨ 1 ≤ t.mbc.deadline ∧ t.mbc.deadline ≤ 15

theorem SetupWritten.inRun (h : SetupWritten s t) : t.inRun = s.inRun := by
  unfold State.inRun
  rw [h.exchange]

theorem SetupWritten.online (h : SetupWritten s t) (q : Port) : t.online q = s.online q := by
  rw [State.online, State.online, h.ports]
  by_cases marked : s.portState q = .ready <;> simp [marked]

theorem State.params_clearReady (s : State) (q : Port) : s.clearReady.params q = s.params q := by
  rw [State.params, s.clearReady_sameSetup.1, State.params]

/-- A write to setup values that clears the READY marks. -/
theorem SetupWritten.of_clearReady {u : State} (setup : s.inRun = false) (changes : ChangesOnly s u [.mbc])
    (exchange : u.mbc.exchange = s.mbc.exchange) (ports : u.mbc.ports = s.mbc.ports)
    (reserves : u.reserveSum ≤ 512 ∨ ∀ q, (u.params q).reserve = (s.params q).reserve)
    (deadline : u.mbc.deadline = s.mbc.deadline ∨ 1 ≤ u.mbc.deadline ∧ u.mbc.deadline ≤ 15) :
    SetupWritten s u.clearReady where
  setup := setup
  changes := changes.trans u.clearReady_changes (by simp) (by simp)
  exchange := by rw [State.clearReady_mbc, exchange]
  ports q := by rw [State.clearReady_portState, State.portState, ports]; rfl
  reserves := by simpa only [State.reserveSum, State.params_clearReady] using reserves
  deadline := by rwa [u.clearReady_sameSetup.2.1]

theorem State.reserveSum_setParams (s : State) (p : Port) (w : Params) :
    (s.setParams p w).reserveSum = s.reserveSumWith p w.reserve := by
  unfold State.reserveSum State.reserveSumWith
  congr 1
  funext q
  by_cases own : q = p <;> simp [State.params, own]

theorem writeParams_keeps (setup : s.inRun = false) (h : law s) (acts : ∀ t, SetupWritten s t → law t) {w : Params}
    (reserve : s.reserveSumWith p w.reserve ≤ 512 ∨ w.reserve = (s.params p).reserve) : law (s.writeParams p w).1 := by
  unfold State.writeParams
  split
  · exact h
  · refine acts _ (.of_clearReady setup (s.setParams_changes p w) rfl rfl ?_ (.inl rfl))
    refine reserve.imp (fun sum => ?_) fun same q => ?_
    · rwa [State.reserveSum_setParams s p w]
    · by_cases own : q = p
      · simp [State.params, own, same]
      · simp [State.params, own]

/-- The four commands that write setup values alone. -/
theorem setupWrites_keep {i : Instr} (h : law s) (acts : ∀ t, SetupWritten s t → law t)
    (write : (∃ p b, i = .setQuota p b) ∨ (∃ p b, i = .setRxq p b) ∨ (∃ p b, i = .setLease p b) ∨ ∃ p b, i = .setDeadline p b) :
    law (actOf i s).1 := by
  rcases write with ⟨p, b, rfl⟩ | ⟨p, b, rfl⟩ | ⟨p, b, rfl⟩ | ⟨p, b, rfl⟩
  · rw [actOf, setQuota_eq]
    refine checked_keeps h fun passing => ?_
    simp only [List.forall_mem_cons] at passing
    obtain ⟨_, setup, _, _, sum, _⟩ := passing
    exact writeParams_keeps (by simpa using setup) h acts (.inl (of_decide_eq_true sum))
  · rw [actOf, setRxq_eq]
    refine checked_keeps h fun passing => ?_
    simp only [List.forall_mem_cons] at passing
    exact writeParams_keeps (by simpa using passing.2.1) h acts (.inr rfl)
  · rw [actOf, setLease_eq]
    refine checked_keeps h fun passing => ?_
    simp only [List.forall_mem_cons] at passing
    exact writeParams_keeps (by simpa using passing.2.1) h acts (.inr rfl)
  · rw [actOf, setDeadline_eq]
    refine checked_keeps h fun passing => ?_
    simp only [List.forall_mem_cons] at passing
    obtain ⟨_, setup, range, _⟩ := passing
    unfold State.writeDeadline
    split
    · exact h
    · refine acts _ (.of_clearReady (by simpa using setup) ?_ rfl rfl (.inr fun _ => rfl) (.inr (of_decide_eq_true range)))
      intro x other
      cases x <;> first | rfl | simp at other

theorem ready_keeps (h : law s) (marks : s.inRun = false → law (s.markReady p))
    (starts : s.inRun = false → s.portState p = .offline → law (s.markReady p).startRun) :
    law (ready s p b).1 := by
  rw [ready_eq]
  refine checked_keeps h fun passing => ?_
  simp only [readyChecks, List.forall_mem_cons] at passing
  have setup : s.inRun = false := by simpa using passing.2.1
  change law (if _ then _ else _)
  split
  next last => exact starts setup last.1
  · exact marks setup

theorem unready_keeps (h : law s) (acts : s.inRun = false →
    law (s.setPort p (if s.portState p = .ready then .offline else s.portState p))) : law (unready s p b).1 := by
  rw [unready_eq]
  refine checked_keeps h fun passing => ?_
  simp only [readyChecks, List.forall_mem_cons] at passing
  exact acts (by simpa using passing.2.1)

theorem join_keeps (h : law s) (acts : s.inRun = true → s.online p = false →
    law ((s.setPort p .online).raiseAll .memberChange (s.otherOnline p))) : law (join s p b).1 := by
  rw [join_eq]
  refine checked_keeps h fun passing => ?_
  simp only [List.forall_mem_cons] at passing
  obtain ⟨_, run, other, _⟩ := passing
  exact acts run (by simpa using other)

theorem leave_keeps (h : law s) (acts : s.inRun = true → s.online p = true → law (s.leave p)) : law (leave s p b).1 := by
  rw [leave_act_eq]
  refine checked_keeps h fun passing => ?_
  simp only [List.forall_mem_cons] at passing
  obtain ⟨_, run, member, _⟩ := passing
  exact acts run member

theorem portReset_keeps (h : law s) (acts : law (s.resetPort p)) : law (portReset s p b).1 := by
  rw [portReset_eq]
  exact checked_keeps h fun _ => acts

theorem resetMembership_keeps (h : law s) (leaves : s.online p = true → law (s.leave p))
    (unmarks : s.portState p = .ready → law (s.setPort p .offline)) : law (s.resetMembership p) := by
  unfold State.resetMembership
  split
  next member => exact leaves ((s.online_eq_true p).2 member)
  next marked => exact unmarks marked
  · exact h
  · exact h

/-! ## Slot starts -/

theorem slotStart_keeps (runs : exec .slotStart s = .next t) (h : law s) (acts : ∀ due, s.resetLow = false →
    s.timer.state = .running → s.timer.nextSlot = some due → law (s.slotStartAt due)) : law t := by
  cases runs
  split
  · exact h
  next live =>
    simp only [Bool.or_eq_true, decide_eq_true_eq, not_or, Bool.not_eq_true, Bool.not_eq_true'] at live
    split
    · exact h
    next due next =>
      refine acts due live.1.1 ?_ next
      cases state : s.timer.state with
      | running => rfl
      | stopped => exact absurd state live.2

end

end Sys2Proof.Machine
end

section
/-! PROOFS. Attention states change by raises, and by the four commands of the Attention Unit and PORT_RESET
(09_attention_events_and_counters.md, R137 to R142, R147): every step keeps ATTN_N at its level. -/

namespace Sys2Proof.Machine

open Sys2Proof

/-! ## What raises alone can do -/

/-- From `s` to `t`, kinds were raised to ports for which `w` holds, and nothing else befell any attention state. -/
def Tells (w : Port → Prop) (s t : State) : Prop :=
  ∀ q, Relation.ReflTransGen (fun a b : Att => w q ∧ ∃ k, b = a.raise k) (s.att.get q) (t.att.get q)

section

variable {w : Port → Prop} {s t u : State} {p : Port}

theorem Tells.of_att (h : t.att = s.att) : Tells w s t := fun _ => h ▸ .refl

theorem Tells.trans (h : Tells w s t) (h' : Tells w t u) : Tells w s u := fun q => (h q).trans (h' q)

theorem Tells.of_changes {parts : List Part} (h : ChangesOnly s t parts) (apart : Part.att ∉ parts) : Tells w s t :=
  .of_att (h.att apart)

theorem Tells.mono {w' : Port → Prop} (h : Tells w s t) (more : ∀ q, w q → w' q) : Tells w' s t :=
  fun q => (h q).lift id fun _ _ told => ⟨more q told.1, told.2⟩

theorem tells_raise (s : State) (k : EventKind) (told : w p) : Tells w s (s.raise k p) := fun q => by
  rw [State.raise_att, PerPort.get_modify]
  split
  next own => exact .single ⟨own ▸ told, k, rfl⟩
  · exact .refl

theorem tells_raiseAll (s : State) (k : EventKind) {ps : List Port} (told : ∀ q ∈ ps, w q) : Tells w s (s.raiseAll k ps) := by
  unfold State.raiseAll
  induction ps generalizing s with
  | nil => exact .of_att rfl
  | cons p ps ih =>
    rw [List.foldl_cons]
    exact (tells_raise s k (told p List.mem_cons_self)).trans (ih _ fun q later => told q (List.mem_cons_of_mem p later))

theorem Tells.foldl {α : Type} {f : State → α → State} {l : List α} {ok : State → Prop}
    (h : ∀ s a, a ∈ l → ok s → Tells w s (f s a) ∧ ok (f s a)) (start : ok s) : Tells w s (l.foldl f s) := by
  induction l generalizing s with
  | nil => exact .of_att rfl
  | cons a l ih =>
    obtain ⟨told, after⟩ := h s a List.mem_cons_self start
    exact told.trans (ih (fun s b later => h s b (List.mem_cons_of_mem a later)) after)

/-- A port that may not be told keeps its attention state. -/
theorem Tells.att_of_not (h : Tells w s t) (untold : ¬ w p) : t.att.get p = s.att.get p := by
  have kept := h p
  generalize t.att.get p = after at kept ⊢
  induction kept with
  | refl => rfl
  | tail _ step => exact absurd step.1 untold

/-- What raises keep of an attention state holds after raises alone. -/
theorem Tells.keeps {law : Att → Prop} (h : Tells w s t) (raises : ∀ a k, law a → law (a.raise k)) (before : law (s.att.get p)) :
    law (t.att.get p) := by
  have kept := h p
  generalize t.att.get p = after at kept ⊢
  induction kept with
  | refl => exact before
  | tail _ step ih =>
    obtain ⟨_, k, rfl⟩ := step
    exact raises _ k ih

/-- No latched kind is lost by raises. -/
theorem Tells.latched (h : Tells w s t) {k : EventKind} (before : EventSet.has (s.att.get p).latched k = true) :
    EventSet.has (t.att.get p).latched k = true :=
  h.keeps (law := fun a => EventSet.has a.latched k = true) (fun a j latched => by simp [latched]) before

/-- Every port that is ONLINE may be told. -/
def TellsOnline (w : Port → Prop) (s : State) : Prop := ∀ q, s.online q = true → w q

theorem TellsOnline.of_mbc (h : TellsOnline w s) (mbc : t.mbc = s.mbc) : TellsOnline w t := fun q member =>
  h q (State.online_congr mbc q ▸ member)

theorem TellsOnline.of_changes (h : TellsOnline w s) {parts : List Part} (changes : ChangesOnly s t parts)
    (apart : Part.mbc ∉ parts) : TellsOnline w t := h.of_mbc (changes.mbc apart)

end

/-! ## Messages and deliveries -/

section

variable {w : Port → Prop} (s : State)

theorem tells_appendReport (p : Port) (r : Report) (told : w p) : Tells w s (s.appendReport p r) := by
  unfold State.appendReport
  dsimp only
  have kept : ∀ f, Tells w s (s.modRpt p f) := fun f => .of_changes (s.modRpt_changes p f) (by simp)
  split
  · split
    · exact (kept _).trans (tells_raise _ _ told)
    · exact kept _
  · exact (kept _).trans (tells_raise _ _ told)

theorem tells_endMessage (on : TellsOnline w s) (d : DescId) (e : Ending) : Tells w s (s.endMessage d e) := by
  unfold State.endMessage State.post
  split
  · exact .of_att rfl
  · split
    next posted => exact tells_appendReport s _ _ (on _ (Bool.and_eq_true _ _ ▸ posted).2)
    · exact .of_att rfl

theorem tells_settle (on : TellsOnline w s) (d : DescId) (p : Port) (v : Delivery) : Tells w s (s.settle d p v) := by
  unfold State.settle
  split
  · exact .of_att rfl
  · dsimp only
    split
    · exact tells_endMessage (s.setDesc d _) on d .released
    · exact .of_att rfl

theorem tells_enqueue (p : Port) (d : DescId) (pos : Position) (told : w p) : Tells w s (s.enqueue p d pos) := by
  unfold State.enqueue
  dsimp only
  have kept : ∀ f, Tells w s (s.modRx p f) := fun f => .of_changes (s.modRx_changes p f) (by simp)
  split
  · exact (kept _).trans (tells_raise _ _ told)
  · exact kept _

theorem tells_purgeQueue (on : TellsOnline w s) (l : LaneId) (ds : List DescId) : Tells w s (purgeQueue l ds s) := by
  induction ds generalizing s with
  | nil => exact .of_att rfl
  | cons d ds ih =>
    have popped : TellsOnline w (s.modLane l Lane.pop) := on
    rw [purgeQueue_cons]
    exact (tells_endMessage (s.modLane l Lane.pop) popped d .purged).trans
      (ih _ (popped.of_changes (State.endMessage_changes _ d .purged) (by simp)))

theorem tells_purge (on : TellsOnline w s) (l : LaneId) : Tells w s (s.purge l) := tells_purgeQueue s on l _

theorem tells_leaveLane (on : TellsOnline w s) (p : Port) (l : LaneId) : Tells w s (leaveLane p s l) := by
  unfold leaveLane
  split
  · exact tells_purge s on l
  · exact .of_att rfl

theorem tells_leaveLanes (on : TellsOnline w s) (p : Port) : Tells w s (s.leaveLanes p) :=
  Tells.foldl (ok := TellsOnline w) (fun s l _ on =>
    ⟨tells_leaveLane s on p l, on.of_changes (leaveLane_changes s p l) (by simp)⟩) on

theorem tells_leaveSlot (on : TellsOnline w s) (p : Port) (n : SlotId) : Tells w s (leaveSlot p s n) := by
  unfold leaveSlot
  split
  · exact .of_att rfl
  · exact tells_settle (s.modRx p _) on _ p .abandoned

theorem tells_leaveQueue (on : TellsOnline w s) (p : Port) (ds : List DescId) : Tells w s (leaveQueue p ds s) := by
  induction ds generalizing s with
  | nil => exact .of_att rfl
  | cons d ds ih =>
    have popped : TellsOnline w (s.modRx p fun r => { r with queue := r.queue.tail }) := on
    exact (tells_settle _ popped d p .abandoned).trans
      (ih _ (popped.of_changes (State.settle_changes _ d p .abandoned) (by simp)))

theorem tells_leaveReceive (on : TellsOnline w s) (p : Port) : Tells w s (s.leaveReceive p) := by
  have slots : Tells w s ((List.finRange 4).foldl (leaveSlot p) s) :=
    Tells.foldl (ok := TellsOnline w) (fun s n _ on =>
      ⟨tells_leaveSlot s on p n, on.of_changes (leaveSlot_changes s p n) (by simp)⟩) on
  have kept : TellsOnline w ((List.finRange 4).foldl (leaveSlot p) s) :=
    on.of_changes (ChangesOnly.foldl _ (fun s n => leaveSlot_changes s p n) _ s) (by simp)
  exact slots.trans (tells_leaveQueue _ kept p _)

theorem tells_giveUp (on : TellsOnline w s) (p : Port) (d : DescId) (told : w p) : Tells w s (s.giveUp p d) := by
  unfold State.giveUp
  exact (tells_raise (s.modRx p _) .deliveryExpired told).trans
    (tells_settle ((s.modRx p fun r => { r with deliveriesExpired := bump r.deliveriesExpired }).raise .deliveryExpired p)
      on d p .expired)

theorem tells_endWithoutAck (on : TellsOnline w s) (p : Port) (n : SlotId) (d : DescId) (c : EndCause) (pos : Position)
    (told : w p) : Tells w s (s.endWithoutAck p n d c pos) := by
  unfold State.endWithoutAck
  dsimp only
  split
  · exact tells_giveUp (s.endLease p n c) on p d told
  · have requeued : Tells w s ((s.endLease p n c).setDelivery d p .queued) :=
      .of_changes ((State.endLease_changes s p n c).trans (State.setDelivery_changes _ d p .queued) (z := [.rx, .mst])
        (by simp) (by simp)) (by simp)
    exact requeued.trans (tells_enqueue _ p d pos told)

end

/-! ## Plans -/

section

variable {w : Port → Prop} (s : State)

theorem tells_decidePlan (on : TellsOnline w s) (r : Proposal) (o : PlanOutcome) : Tells w s (s.decidePlan r o) :=
  tells_raiseAll { s with plan := { s.plan with last := some ⟨r.number, o⟩ } } .planDecided
    fun q member => on q (List.mem_filter.1 member).2

theorem tells_leavePlan (on : TellsOnline w s) (p : Port) : Tells w s (s.leavePlan p) := by
  unfold State.leavePlan
  split
  · exact .of_att rfl
  · split
    · exact tells_decidePlan s on _ _
    · split
      · exact tells_decidePlan s on _ _
      · split <;> exact .of_att rfl

theorem tells_planBoundary (on : TellsOnline w s) : Tells w s s.planBoundary := by
  unfold State.planBoundary
  split
  · exact .of_att rfl
  · split
    · exact tells_decidePlan s on _ _
    · split
      · exact tells_decidePlan s on _ _
      · exact .of_att rfl

end

/-! ## Release passes and slot starts -/

section

variable {w : Port → Prop} (s : State)

theorem State.place_eq_room {s : State} {q : Port} (h : s.place q = .room) : s.online q = true := by
  unfold State.place at h
  split at h
  · cases h
  next member => simpa using member

theorem tells_commit (on : TellsOnline w s) (l : LaneId) (d : DescId) (m : Desc) (st : Stamp) :
    Tells w s (s.commit l d m st) := by
  unfold State.commit
  dsimp only
  generalize (PerPort.ofFn fun q => if m.dest.get q then (s.place q).delivery else m.delivery.get q) = v
  have placed : ∀ q ∈ s.destsAt m .room, w q := fun q member =>
    on q (State.place_eq_room (by simpa using (List.mem_filter.1 member).2))
  have queues : ∀ (u : State), TellsOnline w u → Tells w u ((s.destsAt m .room).foldl (fun s q => s.enqueue q d .tail) u) :=
    fun u _ => Tells.foldl (ok := fun _ => True) (fun u q member _ => ⟨tells_enqueue u q d .tail (placed q member), trivial⟩) trivial
  have misses : ∀ (u : State), Tells w u ((s.destsAt m .noRoom).foldl countMiss u) := fun u =>
    .of_changes (ChangesOnly.foldl _ (fun s q => countMiss_changes s q) _ u) (by simp)
  have start : Tells w s ((s.modLane l fun ln => (Lane.pop ln).count
      (LaneCounters.release (s.destsAt m .noRoom).length)).setDesc d (some (m.released st v (s.destsAt m .room).length))) :=
    .of_att rfl
  have here : TellsOnline w ((s.modLane l fun ln => (Lane.pop ln).count
      (LaneCounters.release (s.destsAt m .noRoom).length)).setDesc d (some (m.released st v (s.destsAt m .room).length))) := on
  have kept : ∀ (u : State), TellsOnline w u →
      TellsOnline w ((s.destsAt m .noRoom).foldl countMiss ((s.destsAt m .room).foldl (fun s q => s.enqueue q d .tail) u)) :=
    fun u ok => (ok.of_changes (ChangesOnly.foldl _ (fun s q => s.enqueue_changes q d .tail) _ u) (by simp)).of_changes
      (ChangesOnly.foldl _ (fun s q => countMiss_changes s q) _ _) (by simp)
  split
  · exact ((start.trans (queues _ here)).trans (misses _)).trans (tells_endMessage _ (kept _ here) d .released)
  · exact (start.trans (queues _ here)).trans (misses _)

theorem tells_discardStale (on : TellsOnline w s) (l : LaneId) (d : DescId) : Tells w s (s.discardStale l d) :=
  tells_endMessage (s.modLane l Lane.pop) on d .stale

theorem tells_passLoop (on : TellsOnline w s) (l : LaneId) (t : LaneSettings) (st : Stamp) (ds : List DescId) (left : Nat)
    (any : Bool) : Tells w s (passLoop l t st ds left any s) := by
  induction ds generalizing s left any with
  | nil =>
    cases left with
    | zero => exact .of_att rfl
    | succ n =>
      unfold passLoop
      split <;> exact .of_att rfl
  | cons d ds ih =>
    cases left with
    | zero => exact .of_att rfl
    | succ n =>
      unfold passLoop
      split
      · exact ih (s.modLane l Lane.pop) on _ _
      · split
        · exact (tells_discardStale s on l d).trans
            (ih _ (on.of_changes (s.discardStale_changes l d) (by simp [passParts])) _ _)
        · split
          · exact .of_att rfl
          · exact (tells_commit s on l d _ st).trans
              (ih _ (on.of_changes (s.commit_changes l d _ st) (by simp [passParts])) _ _)

/-- What tells any port. -/
abbrev TellsAll : State → State → Prop := Tells fun _ => True

theorem tellsOnline_all : TellsOnline (fun _ => True) s := fun _ _ => trivial

theorem tells_drained (l : LaneId) (p : Port) : TellsAll s (s.drained l p) := by
  unfold State.drained
  split
  · exact tells_raise (State.modLane _ _ _) .laneClosed trivial
  · exact .of_att rfl

theorem tells_releasePass : TellsAll s s.releasePass := by
  unfold State.releasePass State.passLane
  split
  · exact .of_att rfl
  · split
    · exact .of_att rfl
    · split
      · exact .of_att rfl
      · exact (tells_passLoop s (tellsOnline_all s) _ _ _ _ _ _).trans (tells_drained _ _ _)

theorem tells_boundary (t : Time) : TellsAll s (s.boundary t) := tells_planBoundary s (tellsOnline_all s)

theorem tells_nextIndex (t : Time) : TellsAll s (s.nextIndex t) := by
  unfold State.nextIndex
  split
  · exact .of_att rfl
  · exact tells_boundary { s with timer := { s.timer with slot := 0, cycle := s.timer.cycle + 1 } } t

theorem tells_slotStartAt (t : Time) : TellsAll s (s.slotStartAt t) := by
  have begun : TellsAll s ((State.nextIndex { s with timer := s.timer.reach t } t).scheduleNext t) :=
    tells_nextIndex { s with timer := s.timer.reach t } t
  exact begun.trans (tells_releasePass _)

theorem tells_startTimer : TellsAll s s.startTimer := by
  have begun : TellsAll s ((State.boundary { s with timer := { s.timer with state := .running, cycle := 0, slot := 0 } }
      s.timer.timeBase).scheduleNext s.timer.timeBase) :=
    tells_boundary { s with timer := { s.timer with state := .running, cycle := 0, slot := 0 } } s.timer.timeBase
  exact begun.trans (tells_releasePass _)

theorem tells_startRun : TellsAll s s.startRun := by
  have told : TellsAll s ((State.raiseAll { s with mbc := s.mbc.start } .exchangeRun s.readyPorts).copyHeader) :=
    tells_raiseAll { s with mbc := s.mbc.start } .exchangeRun fun _ _ => trivial
  exact told.trans (tells_startTimer _)

/-- R160: a leave tells ports that are ONLINE, and not the one that leaves. -/
theorem tells_leave (p : Port) : Tells (fun q => q ≠ p ∧ s.online q = true) s (s.leave p) := by
  have on : ∀ u : State, u.mbc = { s.mbc with ports := s.mbc.ports.set p .offline } →
      TellsOnline (fun q => q ≠ p ∧ s.online q = true) u := by
    intro u mbc q member
    rw [State.online, State.portState, mbc] at member
    by_cases own : q = p
    · simp [own] at member
    · exact ⟨own, by simpa [State.online, State.portState, own] using member⟩
  have parted : Tells (fun q => q ≠ p ∧ s.online q = true) s (s.leaveParted p) := by
    unfold State.leaveParted
    have mbc1 : ((s.setPort p .offline).raiseAll .memberChange (s.otherOnline p)).mbc =
        { s.mbc with ports := s.mbc.ports.set p .offline } := State.raiseAll_mbc _ _ _
    have tells1 : Tells (fun q => q ≠ p ∧ s.online q = true) s
        ((s.setPort p .offline).raiseAll .memberChange (s.otherOnline p)) :=
      tells_raiseAll (s.setPort p .offline) .memberChange fun q member => by simpa [State.otherOnline] using member
    have mbc2 := ((State.leavePlan_changes _ p).mbc (by simp)).trans mbc1
    have tells2 := tells1.trans (tells_leavePlan _ (on _ mbc1) p)
    have mbc3 := ((State.leaveShadow_changes _ p).mbc (by simp)).trans mbc2
    have tells3 := tells2.trans (.of_changes (State.leaveShadow_changes _ p) (by simp))
    have mbc4 := ((State.leaveLanes_changes _ p).mbc (by simp)).trans mbc3
    have tells4 := tells3.trans (tells_leaveLanes _ (on _ mbc3) p)
    have tells5 := tells4.trans (tells_leaveReceive _ (on _ mbc4) p)
    exact tells5.trans (.of_changes (State.modRpt_changes _ p _) (by simp))
  rw [State.leave_eq]
  exact parted.trans (.of_changes (State.endRunIfEmpty_changes _) (by simp))

theorem tells_clearReady : TellsAll s s.clearReady :=
  Tells.foldl (ok := fun _ => True) (fun s p _ _ => ⟨tells_raise (s.setPort p .offline) .readyCleared trivial, trivial⟩) trivial

theorem tells_openProposal (p : Port) : TellsAll s (s.openProposal p) :=
  tells_raiseAll { s with plan := { s.plan with
    proposal := some (s.newProposal p), nextNumber := nextNumber s.plan.nextNumber } } .planOpened fun _ _ => trivial

end

/-! ## The law of one attention state -/

/-- R137, R140: a renewed kind is latched, and no snapshot has number 0. -/
def Att.Numbered (a : Att) : Prop :=
  a.renewed &&& ~~~ a.latched = 0 ∧ a.nextSnapshot ≠ 0 ∧ ∀ sn, a.snapshot = some sn → sn.number ≠ 0

/-- R138: besides, ATTN_N is low exactly while an enabled kind is latched. -/
def Att.Sound (a : Att) : Prop := a.attnLow = a.attention ∧ a.Numbered

theorem EventSet.has_zero (k : EventKind) : EventSet.has 0 k = false := BitVec.getLsbD_zero

theorem EventSet.and_not_eq_zero {a b : EventSet} :
    a &&& ~~~ b = 0 ↔ ∀ k, EventSet.has a k = true → EventSet.has b k = true := by
  constructor
  · intro empty k renewed
    have none : EventSet.has (a &&& ~~~ b) k = EventSet.has 0 k := congrArg (EventSet.has · k) empty
    rw [EventSet.has_and, EventSet.has_not, renewed, EventSet.has_zero] at none
    simpa using none
  · intro sub
    refine BitVec.eq_of_getLsbD_eq fun i low => ?_
    obtain ⟨k, rfl⟩ := EventSet.kind_of_bit i low
    have kept := sub k
    change EventSet.has (a &&& ~~~ b) k = EventSet.has 0 k
    rw [EventSet.has_and, EventSet.has_not, EventSet.has_zero]
    cases renewed : EventSet.has a k with
    | false => rfl
    | true => rw [kept renewed]; rfl

theorem nextNumber_ne_zero (n : BitVec 8) : nextNumber n ≠ 0 := by
  unfold nextNumber
  split
  · decide
  · bv_omega

section

variable {a : Att}

theorem Att.Numbered.raise (h : a.Numbered) (k : EventKind) : (a.raise k).Numbered := by
  obtain ⟨renewed, next, numbers⟩ := h
  refine ⟨EventSet.and_not_eq_zero.2 fun j marked => ?_, by rwa [Att.raise_nextSnapshot], by rwa [Att.raise_snapshot]⟩
  rw [Att.raise_renewed, Bool.or_eq_true, Bool.and_eq_true] at marked
  rw [Att.raise_latched, Bool.or_eq_true]
  exact marked.imp (EventSet.and_not_eq_zero.1 renewed j) (·.1)

theorem Att.Sound.raise (h : a.Sound) (k : EventKind) : (a.raise k).Sound := ⟨Att.raise_attnLow k a, h.2.raise k⟩

theorem Att.Sound.takeSnapshot (h : a.Sound) : a.takeSnapshot.Sound := by
  obtain ⟨line, _, next, _⟩ := h
  refine ⟨line, by simp [Att.takeSnapshot], nextNumber_ne_zero _, ?_⟩
  rintro _ ⟨⟩
  exact next

theorem Att.Sound.clearKinds (h : a.Sound) (sn : Snapshot) : (a.clearKinds sn).Sound := by
  obtain ⟨_, renewed, next, _⟩ := h
  refine ⟨rfl, EventSet.and_not_eq_zero.2 fun k marked => ?_, next, by rintro _ ⟨⟩⟩
  have marked' : EventSet.has a.renewed k = true := marked
  rw [Att.has_clearKinds_latched]
  simp [marked', EventSet.and_not_eq_zero.1 renewed k marked']

theorem Att.Sound.setMask (h : a.Sound) (m : EventSet) : (a.setMask m).Sound := ⟨rfl, h.2⟩

theorem Att.Sound.clearAll (h : a.Sound) : a.clearAll.Sound := ⟨rfl, by simp [Att.clearAll, Att.line], h.2.2.1, by rintro _ ⟨⟩⟩

end

/-! ## What every command keeps -/

/-- Every attention state is sound. -/
def State.AttentionSound (s : State) : Prop := ∀ p, (s.att.get p).Sound

section

variable {s t : State} {p : Port}

theorem State.AttentionSound.tells {w : Port → Prop} (h : s.AttentionSound) (told : Tells w s t) : t.AttentionSound :=
  fun q => told.keeps (fun _ k sound => sound.raise k) (h q)

theorem State.AttentionSound.modAtt (h : s.AttentionSound) {f : Att → Att} (keeps : (f (s.att.get p)).Sound) :
    (s.modAtt p f).AttentionSound := by
  intro q
  rw [State.modAtt_att, PerPort.get_modify]
  split
  next own => exact own ▸ keeps
  · exact h q

theorem attentionSound_reads : ReadsOnly State.AttentionSound [.att] := fun s t same h => by
  have att : t.att = s.att := same .att (by simp)
  unfold State.AttentionSound
  rwa [att]

theorem tells_abort (s : State) (p : Port) : TellsAll s (s.abort p) := tells_raise (s.modLink p _) .linkError trivial

theorem tells_crcFailed (s : State) (p : Port) (tag : Byte) : TellsAll s (s.crcFailed p tag) := by
  rw [State.crcFailed_eq]
  exact tells_raise s .linkError trivial

theorem tells_writeParams (s : State) (p : Port) (w : Params) : TellsAll s (s.writeParams p w).1 := by
  unfold State.writeParams
  split
  · exact .of_att rfl
  · exact tells_clearReady (s.setParams p w)

theorem tells_writeDeadline (s : State) (n : Nat) : TellsAll s (s.writeDeadline n).1 := by
  unfold State.writeDeadline
  split
  · exact .of_att rfl
  · exact tells_clearReady { s with mbc := { s.mbc with deadline := n } }

theorem tells_markReady (s : State) (p : Port) : TellsAll s (s.markReady p) := by
  unfold State.markReady
  split <;> exact .of_att rfl

theorem tells_castVote (s : State) (r : Proposal) (p : Port) (ch : Choice) : TellsAll s (s.castVote r p ch) := by
  cases ch with
  | yes => exact .of_att rfl
  | no => exact tells_decidePlan s (tellsOnline_all s) r _

theorem tells_expire (s : State) (p : Port) (n : SlotId) (l : Lease) : TellsAll s (s.expire p n l) := by
  have counted : TellsAll s (s.expiring p l) :=
    tells_raise (State.modRx { s with timer := s.timer.reach l.deadline } p _) .leaseExpired trivial
  exact counted.trans (tells_endWithoutAck _ (tellsOnline_all _) p n l.desc _ _ trivial)

theorem State.AttentionSound.resetPort (h : s.AttentionSound) : (s.resetPort p).AttentionSound := by
  have member : (s.resetMembership p).AttentionSound :=
    resetMembership_keeps h (fun _ => h.tells (tells_leave s p)) fun _ => h
  have cleared : State.AttentionSound ((((s.resetMembership p).clearBlockCounters p).modRx p Rx.clearEnds).modLink p
    Link.clearRecord) := member
  exact cleared.modAtt (cleared p).clearAll

theorem State.AttentionSound.clearEvents (h : s.AttentionSound) (b : List Byte) : (clearEvents s p b).1.AttentionSound := by
  unfold Machine.clearEvents
  split
  · dsimp only
    split
    · exact h
    · split
      · exact h
      · exact h.modAtt ((h p).clearKinds _)
  · exact h

/-- Every command and happening but those of RESET_N keeps the attention states sound. -/
theorem attentionSound_exec {i : Instr} (touched : touches i [.att] = true) (other : i.isReset = false)
    (h : s.AttentionSound) (runs : exec i s = .next t) : t.AttentionSound := by
  have command : ∀ {p code b}, i.command? = some (p, code, b) → (actOf i s).1.AttentionSound → t.AttentionSound :=
    fun named act => attentionSound_reads.exec_command (by simp) named runs h fun _ => act
  cases i with
  | resetNAssert => cases other
  | resetNRelease straps => cases other
  | csNRise p bytes =>
    cases runs
    split
    · exact h
    · dsimp only
      split
      · split
        · exact h.tells (tells_abort (s.modLink p fun l => { l with csLow := false }) p)
        · exact h
      · exact h
  | requestReceived p code tag payload crc =>
    cases runs
    split
    · exact h
    · split
      · exact h
      · split
        · exact h.tells (tells_crcFailed s p tag)
        · exact h
  | slotStart => exact slotStart_keeps runs h fun due _ _ _ => h.tells (tells_slotStartAt s due)
  | leaseExpiry p n => exact leaseExpiry_keeps runs h fun l _ => h.tells (tells_expire s p n l)
  | portReset p b => exact command rfl (portReset_keeps h h.resetPort)
  | setQuota p b => 
    refine command rfl ?_
    rw [actOf, setQuota_eq]
    exact checked_keeps h fun _ => h.tells (tells_writeParams s p _)
  | setRxq p b =>
    refine command rfl ?_
    rw [actOf, setRxq_eq]
    exact checked_keeps h fun _ => h.tells (tells_writeParams s p _)
  | setLease p b =>
    refine command rfl ?_
    rw [actOf, setLease_eq]
    exact checked_keeps h fun _ => h.tells (tells_writeParams s p _)
  | setDeadline p b =>
    refine command rfl ?_
    rw [actOf, setDeadline_eq]
    exact checked_keeps h fun _ => h.tells (tells_writeDeadline s _)
  | setFrame p b => exact command rfl (setFrame_keeps h (fun u _ sound => sound.tells (tells_clearReady u)) fun _ _ _ => h)
  | ready p b =>
    have marked : (s.markReady p).AttentionSound := h.tells (tells_markReady s p)
    exact command rfl (ready_keeps h (fun _ => marked) fun _ _ => marked.tells (tells_startRun _))
  | join p b =>
    exact command rfl (join_keeps h fun _ _ =>
      h.tells (tells_raiseAll (w := fun _ => True) (s.setPort p .online) .memberChange fun _ _ => trivial))
  | leave p b => exact command rfl (leave_keeps h fun _ _ => h.tells (tells_leave s p))
  | purgeLane p b => exact command rfl (purgeLane_keeps h fun l _ => h.tells (tells_purge s (tellsOnline_all s) l))
  | ack p b =>
    exact command rfl (ack_keeps h fun _ n l _ =>
      h.tells (tells_settle (s.endLease p n .settled) (tellsOnline_all _) l.desc p .delivered))
  | returnLease p b =>
    exact command rfl (returnLease_keeps h fun _ n l pos _ =>
      h.tells (tells_endWithoutAck s (tellsOnline_all s) p n l.desc .settled pos trivial))
  | propose p b => exact command rfl (propose_keeps h fun _ _ _ _ => h.tells (tells_openProposal s p))
  | vote p b => exact command rfl (vote_keeps h fun r _ _ _ ch => h.tells (tells_castVote s r p ch))
  | withdraw p b => exact command rfl (withdraw_keeps h fun r _ => h.tells (tells_decidePlan s (tellsOnline_all s) r _))
  | getEvents p b =>
    refine command rfl ?_
    rw [actOf, getEvents_eq]
    exact checked_keeps h fun _ => h.modAtt (h p).takeSnapshot
  | clearEvents p b => exact command rfl (h.clearEvents b)
  | setEventMask p b =>
    refine command rfl ?_
    rw [actOf, setEventMask_eq]
    exact checked_keeps h fun _ => h.modAtt ((h p).setMask _)
  | _ => exact (Bool.false_ne_true touched).elim

/-! ## ATTN_N and RESET_N -/

theorem State.attentionLawful_iff_sound (high : s.resetLow = false) : s.AttentionLawful ↔ s.AttentionSound := by
  unfold State.AttentionLawful State.AttentionSound Att.Sound
  simp only [high, Bool.not_false, Bool.true_and]
  rfl

theorem resetLow_notMem_partsOf {i : Instr} (other : i.isReset = false) : Part.resetLow ∉ partsOf i := by
  cases i <;> first | exact of_decide_eq_false rfl | cases other

theorem attentionLawful_reads : ReadsOnly State.AttentionLawful [.att, .resetLow] := fun s t same h => by
  have att : t.att = s.att := same .att (by simp)
  have resetLow : t.resetLow = s.resetLow := same .resetLow (by simp)
  unfold State.AttentionLawful
  rwa [att, resetLow]

/-- Every command and happening keeps ATTN_N at its level and the snapshots numbered. -/
theorem attentionLawful_exec {i : Instr} (touched : touches i [.att, .resetLow] = true) (h : s.AttentionLawful)
    (runs : exec i s = .next t) : t.AttentionLawful := by
  cases reset : i.isReset with
  | true =>
    cases i with
    | resetNAssert =>
      cases runs
      intro q
      obtain ⟨_, numbered⟩ := h q
      simpa [attentionHigh] using numbered
    | resetNRelease straps =>
      cases runs
      refine (State.attentionLawful_iff_sound rfl).2 fun q => ?_
      rw [PerPort.get_fill]
      exact ⟨rfl, rfl, by decide, by rintro _ ⟨⟩⟩
    | _ => cases reset
  | false =>
    cases low : s.resetLow with
    | true => exact attentionLawful_reads.keeps (exec_of_reset low reset runs) (by simp) h
    | false =>
      have changes := changes_of_exec runs
      have kept : t.resetLow = false := by
        rw [changes.resetLow (resetLow_notMem_partsOf reset), low]
      refine (State.attentionLawful_iff_sound kept).2 ?_
      replace h := (State.attentionLawful_iff_sound low).1 h
      cases told : touches i [.att] with
      | true => exact attentionSound_exec told reset h runs
      | false => exact attentionSound_reads.exec_untouched told runs h

end

/-- Settles O50: each attention state changes by raises, by the Attention Unit's own commands or by PORT_RESET, and each
of those keeps it sound. -/
theorem stepKeepsAttentionLawful : Obligations.StepKeepsAttentionLawful := by
  unfold Obligations.StepKeepsAttentionLawful
  intro s t h runs
  exact attentionLawful_reads.step (by simp) (by simp) (fun _ _ h => h) (fun i s t => attentionLawful_exec) h runs

end Sys2Proof.Machine
end

section
/-! PROOFS. Slot starts and cycle boundaries (05_cycle_timer.md, R81 to R86; 04_plan_proposals.md, R71): what stands when a
slot has begun and its release pass is still to come. -/

namespace Sys2Proof.Machine

open Sys2Proof

/-! ## The banks -/

section

variable (c : Cal)

theorem BankId.eq_or_eq_other (j k : BankId) : j = k ∨ j = k.other := by cases j <;> cases k <;> simp [BankId.other]

theorem Cal.bank_setBank (j k : BankId) (b : Bank) : (c.setBank j b).bank k = if k = j then b else c.bank k := by
  cases j <;> cases k <;> rfl

theorem Cal.bank_setShadow (k : BankId) (b : Bank) :
    (c.setShadow b).bank k = if k = c.active.other then b else c.bank k := c.bank_setBank _ k b

theorem Cal.bank_setActive (k : BankId) (b : Bank) :
    (c.setActive b).bank k = if k = c.active then b else c.bank k := c.bank_setBank _ k b

theorem Cal.swap_active : c.swap.active = c.active.other := by
  simp [Cal.swap]

/-- R56: after the swap both banks are the one that was the shadow. -/
theorem Cal.bank_swap (k : BankId) : c.swap.bank k = c.shadow := by
  rw [Cal.swap, Cal.bank_setShadow]
  split
  · rfl
  next other => exact congrArg c.bank ((k.eq_or_eq_other _).resolve_right other)

end

/-! ## Cycle boundaries -/

section

variable (s : State)

theorem State.planBoundary_of_none (none : s.plan.proposal = none) : s.planBoundary = s := by
  simp only [State.planBoundary, none]

variable {s} {r : Proposal}

theorem State.planBoundary_of_accepted (standing : s.plan.proposal = some r) (state : r.state = .accepted) :
    s.planBoundary = (s.decidePlan r .applied).swapBanks := by
  simp only [State.planBoundary, standing, state]

theorem State.planBoundary_of_last (standing : s.plan.proposal = some r) (state : r.state = .opened)
    (last : r.remaining ≤ 1) : s.planBoundary = s.decidePlan r .lapsedDeadline := by
  simp only [State.planBoundary, standing, state, if_pos last]

theorem State.planBoundary_of_more (standing : s.plan.proposal = some r) (state : r.state = .opened)
    (more : ¬ r.remaining ≤ 1) : s.planBoundary = s.setProposal { r with remaining := r.remaining - 1 } := by
  simp only [State.planBoundary, standing, state, if_neg more]

theorem State.decidePlan_cal (s : State) (r : Proposal) (o : PlanOutcome) : (s.decidePlan r o).cal = s.cal :=
  (s.decidePlan_changes r o).cal (by simp)

theorem ProposalState.eq_opened {st : ProposalState} (h : st ≠ .accepted) : st = .opened := by
  cases st with
  | opened => rfl
  | accepted => exact absurd rfl h

/-- R71, R84: what the cycle boundary does to the plan, the banks and the attention states. -/
theorem State.planBoundary_plan (s : State) : match s.plan.proposal with
    | none => s.planBoundary.plan = s.plan ∧ s.planBoundary.cal = s.cal ∧ s.planBoundary.att = s.att
    | some r =>
      if r.state = .accepted then Decided s s.planBoundary r .applied ∧ s.planBoundary.cal = s.cal.swap
      else if r.remaining ≤ 1 then Decided s s.planBoundary r .lapsedDeadline ∧ s.planBoundary.cal = s.cal
      else s.planBoundary.plan = { s.plan with proposal := some { r with remaining := r.remaining - 1 } } ∧
        s.planBoundary.cal = s.cal ∧ s.planBoundary.att = s.att := by
  cases standing : s.plan.proposal with
  | none => simp only [s.planBoundary_of_none standing, and_self]
  | some r =>
    dsimp only
    split
    next state =>
      rw [State.planBoundary_of_accepted standing state]
      refine ⟨s.decided_decidePlan r .applied, ?_⟩
      rw [State.swapBanks, State.decidePlan_cal]
    next state =>
      split
      next last =>
        rw [State.planBoundary_of_last standing (ProposalState.eq_opened state) last]
        exact ⟨s.decided_decidePlan r .lapsedDeadline, s.decidePlan_cal r _⟩
      next more =>
        rw [State.planBoundary_of_more standing (ProposalState.eq_opened state) more]
        exact ⟨rfl, rfl, rfl⟩

/-- R56: a boundary leaves the banks as they are, or swaps them. -/
theorem State.planBoundary_cal (s : State) : s.planBoundary.cal = s.cal ∨ s.planBoundary.cal = s.cal.swap := by
  have plan := s.planBoundary_plan
  cases standing : s.plan.proposal with
  | none =>
    rw [standing] at plan
    exact .inl plan.2.1
  | some r =>
    rw [standing] at plan
    dsimp only at plan
    split at plan
    · exact .inr plan.2
    · split at plan
      · exact .inl plan.2
      · exact .inl plan.2.1

/-! ## A slot that has begun -/

/-- R81, R83: the slot start due at `due`, but for its release pass. -/
def State.slotBegun (s : State) (due : Time) : State :=
  (State.nextIndex { s with timer := s.timer.reach due } due).scheduleNext due

theorem State.slotStartAt_eq (s : State) (due : Time) : s.slotStartAt due = (s.slotBegun due).releasePass := rfl

theorem exec_slotStart {due : Time} (high : s.resetLow = false) (clock : s.refclk = true) (running : s.timer.state = .running)
    (next : s.timer.nextSlot = some due) : exec .slotStart s = .next (s.slotBegun due).releasePass := by
  simp [exec, execSlotStart, high, clock, running, next, State.slotStartAt_eq]

section

variable (tm : Timer) (now : Time)

theorem Timer.reach_eq_timeBase : tm.reach now = { tm with timeBase := (tm.reach now).timeBase } := (tm.reach_eq now).2.1

@[simp] theorem Timer.reach_state : (tm.reach now).state = tm.state := by rw [Timer.reach_eq_timeBase]
@[simp] theorem Timer.reach_cycle : (tm.reach now).cycle = tm.cycle := by rw [Timer.reach_eq_timeBase]
@[simp] theorem Timer.reach_slot : (tm.reach now).slot = tm.slot := by rw [Timer.reach_eq_timeBase]
@[simp] theorem Timer.reach_header : (tm.reach now).header = tm.header := by rw [Timer.reach_eq_timeBase]
@[simp] theorem Timer.reach_nextSlot : (tm.reach now).nextSlot = tm.nextSlot := by rw [Timer.reach_eq_timeBase]
@[simp] theorem Timer.reach_syncOut : (tm.reach now).syncOut = tm.syncOut := by rw [Timer.reach_eq_timeBase]
@[simp] theorem Timer.reach_syncEnd : (tm.reach now).syncEnd = tm.syncEnd := by rw [Timer.reach_eq_timeBase]

theorem Timer.reach_timeBase : (tm.reach now).timeBase = if reached now tm.timeBase then tm.timeBase else now := by
  unfold Timer.reach
  split <;> rfl

end

/-- R81: within a cycle the index moves on, and nothing but the timer changes. -/
theorem State.slotBegun_within {due : Time} (within : s.timer.slot.toNat + 1 < s.timer.header.slots) :
    s.slotBegun due = { s with timer := { s.timer.reach due with
      slot := s.timer.slot + 1, nextSlot := some (due + BitVec.ofNat 32 s.timer.header.length) } } := by
  simp [State.slotBegun, State.nextIndex, State.scheduleNext, within]

/-- The state at a boundary, its slot and cycle set, before the Plan Coordinator acts. -/
def State.turned (s : State) (due : Time) : State :=
  { s with timer := { s.timer.reach due with slot := 0, cycle := s.timer.cycle + 1 } }

/-- R81, R82, R84, R85: at the last slot's end the next cycle begins. -/
theorem State.slotBegun_boundary {due : Time} (last : s.timer.header.slots ≤ s.timer.slot.toNat + 1) :
    s.slotBegun due = { (s.turned due).planBoundary with timer := { s.timer.reach due with
      slot := 0, cycle := s.timer.cycle + 1, header := (s.turned due).planBoundary.cal.activeBank.header
      syncOut := true, syncEnd := some (due + 8)
      nextSlot := some (due + BitVec.ofNat 32 (s.turned due).planBoundary.cal.activeBank.header.length) } } := by
  have timer : (s.turned due).planBoundary.timer = (s.turned due).timer := (State.planBoundary_changes _).timer (by simp)
  have turns : State.nextIndex { s with timer := s.timer.reach due } due = (s.turned due).boundary due := by
    simp [State.nextIndex, not_lt.2 last, State.turned]
  rw [State.slotBegun, turns, State.boundary, timer]
  rfl

theorem State.slotBegun_changes_within {due : Time} (within : s.timer.slot.toNat + 1 < s.timer.header.slots) :
    ChangesOnly s (s.slotBegun due) [.timer] := by
  rw [State.slotBegun_within within]
  exact timer_changes s _

theorem State.slotBegun_changes (s : State) (due : Time) : ChangesOnly s (s.slotBegun due) [.timer, .plan, .cal, .att] := by
  refine ChangesOnly.comp ?_ ((State.scheduleNext_changes _ due).mono (by simp))
  exact ((timer_changes s _).mono (by simp)).comp ((State.nextIndex_changes _ due).mono (by simp))

theorem State.slotBegun_timer_state (s : State) (due : Time) : (s.slotBegun due).timer.state = s.timer.state ∧
    (s.slotBegun due).timer.timeBase = (if reached due s.timer.timeBase then s.timer.timeBase else due) ∧
    (s.slotBegun due).timer.nextSlot = some (due + BitVec.ofNat 32 (s.slotBegun due).timer.header.length) := by
  rcases lt_or_ge (s.timer.slot.toNat + 1) s.timer.header.slots with within | last
  · rw [State.slotBegun_within within]
    simp [Timer.reach_timeBase]
  · rw [State.slotBegun_boundary last]
    simp [Timer.reach_timeBase]

/-- R71, R81, R82, R84, R85: the slot start that has begun is the one the rules describe. -/
theorem State.slotBegins (s : State) (due : Time) : SlotBegins s (s.slotBegun due) due := by
  obtain ⟨state, time, next⟩ := s.slotBegun_timer_state due
  refine ⟨state, time, next, fun within => ?_, fun last => ⟨s.slotBegun_changes due, ?_⟩⟩
  · refine ⟨State.slotBegun_changes_within within, ?_⟩
    rw [State.slotBegun_within within]
    simp
  · have plan := (s.turned due).planBoundary_plan
    rw [State.slotBegun_boundary last]
    refine ⟨rfl, rfl, rfl, rfl, rfl, ?_⟩
    cases standing : s.plan.proposal with
    | none =>
      have standing' : (s.turned due).plan.proposal = none := standing
      rw [standing'] at plan
      exact plan
    | some r =>
      have standing' : (s.turned due).plan.proposal = some r := standing
      rw [standing'] at plan
      dsimp only at plan ⊢
      split at plan
      next state =>
        obtain ⟨decided, cal⟩ := plan
        rw [if_pos state, cal]
        refine ⟨decided, (s.turned due).cal.swap_active, ?_⟩
        exact ⟨Cal.bank_swap _ _, Cal.bank_swap _ _⟩
      next state =>
        rw [if_neg state]
        split at plan
        next last => rwa [if_pos last]
        next more => rwa [if_neg more]

end

/-! ## SLOT_START and SYNC_OUT_PULSE_END -/

theorem reached_self (due : Time) : reached due due = true := by simp [reached]

section

variable {s u t : State} {due : Time}

/-- What a release pass leaves alone. -/
theorem State.releasePass_keeps (u : State) : u.releasePass.timer = u.timer ∧ u.releasePass.plan = u.plan ∧
    u.releasePass.cal = u.cal :=
  ⟨u.releasePass_changes.timer (by simp [passParts]), u.releasePass_changes.plan (by simp [passParts]),
    u.releasePass_changes.cal (by simp [passParts])⟩

/-- R70: the ONLINE proposer and voters of a decided proposal have PLAN_DECIDED latched. -/
theorem Decided.latched {r : Proposal} {o : PlanOutcome} (decided : Decided s u r o) {q : Port}
    (member : q = r.proposer ∨ r.voters.get q = true) (online : s.online q = true) :
    EventSet.has (u.att.get q).latched .planDecided = true := by
  have told : q ∈ Port.all.filter fun q => (q == r.proposer || r.voters.get q) && s.online q := by
    simpa [online] using member
  rw [decided.2 q, if_pos told]
  simp

theorem exec_slotStart_of_stopped (stopped : s.timer.state = .stopped) : exec .slotStart s = .next s := by
  simp [exec, execSlotStart, stopped]

theorem exec_syncOutPulseEnd (high : s.resetLow = false) (clock : s.refclk = true) (held : s.timer.syncEnd = some due) :
    exec .syncOutPulseEnd s = .next { s with timer := { s.timer.reach due with syncOut := false, syncEnd := none } } := by
  simp [exec, execSyncOutPulseEnd, high, clock, held]

theorem SlotBegins.reached (begins : SlotBegins s u due) : reached due u.timer.timeBase = true := by
  rw [begins.2.1]
  split
  · assumption
  · exact reached_self due

/-- R71, R84: what a boundary makes of a standing proposal and of the banks, the release pass not touching either. -/
theorem SlotBegins.of_standing (begins : SlotBegins s u due) (last : s.timer.header.slots ≤ s.timer.slot.toNat + 1)
    {r : Proposal} (standing : s.plan.proposal = some r) :
    (r.state = .accepted → Decided s u r .applied ∧ u.cal.active = s.cal.active.other ∧
      u.cal.activeBank = s.cal.shadow ∧ u.cal.shadow = s.cal.shadow) ∧
    (r.state = .opened → u.cal = s.cal) ∧
    (r.state = .opened → 1 < r.remaining →
      u.plan = { s.plan with proposal := some { r with remaining := r.remaining - 1 } }) ∧
    (r.state = .opened → r.remaining ≤ 1 → Decided s u r .lapsedDeadline) := by
  obtain ⟨_, _, _, _, boundary⟩ := begins
  obtain ⟨_, _, _, _, _, _, plan⟩ := boundary last
  rw [standing] at plan
  dsimp only at plan
  split at plan
  next state => exact ⟨fun _ => plan, by simp [state], by simp [state], by simp [state]⟩
  next state =>
    split at plan
    next few => exact ⟨fun accepted => absurd accepted state, fun _ => plan.2, fun _ many => by omega, fun _ _ => plan.1⟩
    next many =>
      exact ⟨fun accepted => absurd accepted state, fun _ => plan.2.1, fun _ _ => plan.1, fun _ few => absurd few many⟩

end

/-- Settles O47: the slot begins as R81 to R85 and R71 say, and its release pass touches neither timer, plan nor banks and
loses no latched kind. -/
theorem slotStartAdvancesTimer : Obligations.SlotStartAdvancesTimer := by
  unfold Obligations.SlotStartAdvancesTimer
  intro s due high clock
  refine ⟨fun running next => ?_, exec_slotStart_of_stopped, fun held => ?_⟩
  · have begins := s.slotBegins due
    obtain ⟨timer, plan, cal⟩ := (s.slotBegun due).releasePass_keeps
    have reach := begins.reached
    have tells := tells_releasePass (s.slotBegun due)
    have passes := (s.slotBegun due).releasePass_changes
    have whole := ChangesOnly.trans (z := [.timer, .plan, .cal, .att, .lanes, .mst, .rx, .rpt]) (s.slotBegun_changes due)
      passes (by simp) (by simp [passParts])
    refine ⟨_, exec_slotStart high clock running next, whole, ?_⟩
    rw [timer, plan, cal]
    have standing {r} (last) (standing : s.plan.proposal = some r) := begins.of_standing last standing
    obtain ⟨state, time, nextSlot, within, boundary⟩ := begins
    refine ⟨state.trans running, reach, fun past => by rw [time, if_pos past], nextSlot, fun inside => ?_, fun last => ?_⟩
    · obtain ⟨changes, rest⟩ := within inside
      exact ⟨changes.trans passes (by simp) (by simp [passParts]), rest⟩
    · obtain ⟨_, cycle, slot, header, syncOut, syncEnd, planned⟩ := boundary last
      refine ⟨cycle, slot, header, syncOut, syncEnd, fun none => ?_, fun r stands => ?_⟩
      · rw [none] at planned
        exact ⟨planned.1, planned.2.1⟩
      · obtain ⟨applied, kept, counted, lapsed⟩ := standing last stands
        refine ⟨fun accepted => ⟨(applied accepted).1.1, (applied accepted).2⟩, kept, counted,
          fun opened few => (lapsed opened few).1, fun decided q member online => tells.latched ?_⟩
        by_cases accepted : r.state = .accepted
        · exact (applied accepted).1.latched member online
        · exact (lapsed (ProposalState.eq_opened accepted) (decided.resolve_left accepted)).latched member online
  · refine ⟨_, exec_syncOutPulseEnd high clock held, timer_changes s _, ?_, ?_, fun past => ?_⟩
    · simp
    · exact (s.timer.reach_eq due).1
    · have stays := congrArg Timer.timeBase ((s.timer.reach_eq due).2.2 past)
      exact stays

end Sys2Proof.Machine
end

section
/-! PROOFS. The law of the Cycle Timer (05_cycle_timer.md, R79, R82, R85, R86): the timer stays in accord with the
exchange state and the banks. -/

namespace Sys2Proof.Machine

open Sys2Proof

/-! ## States that agree on all the timer's law reads -/

/-- `s` and `t` agree on the exchange state, the timer but for its time base, the active bank's letter and the headers. -/
structure SameClock (s t : State) : Prop where
  resetLow : t.resetLow = s.resetLow
  inRun : t.inRun = s.inRun
  timer : t.timer = { s.timer with timeBase := t.timer.timeBase }
  active : t.cal.active = s.cal.active
  headers : ∀ bk, (t.cal.bank bk).header = (s.cal.bank bk).header

section

variable {s t u : State} {p : Port}

theorem State.inRun_congr {s t : State} (h : t.mbc.exchange = s.mbc.exchange) : t.inRun = s.inRun := by
  unfold State.inRun
  rw [h]

theorem SameClock.of_changes {parts : List Part} (changes : ChangesOnly s t parts) (resetLow : Part.resetLow ∉ parts)
    (timer : Part.timer ∉ parts) (cal : Part.cal ∉ parts) (exchange : t.mbc.exchange = s.mbc.exchange) : SameClock s t where
  resetLow := changes.resetLow resetLow
  inRun := State.inRun_congr exchange
  timer := by rw [changes.timer timer]
  active := by rw [changes.cal cal]
  headers bk := by rw [changes.cal cal]

theorem SameClock.trans (h : SameClock s t) (h' : SameClock t u) : SameClock s u where
  resetLow := h'.resetLow.trans h.resetLow
  inRun := h'.inRun.trans h.inRun
  timer := by rw [h'.timer, h.timer]
  active := h'.active.trans h.active
  headers bk := (h'.headers bk).trans (h.headers bk)

theorem State.TimerLawful.of_same (h : s.TimerLawful) (same : SameClock s t) : t.TimerLawful := by
  unfold State.TimerLawful Cal.activeBank at *
  rw [same.timer, same.resetLow, same.inRun, same.active]
  simp only [same.headers]
  exact h

/-- An edit of shadow entries touches no header. -/
theorem SameClock.setShadow {b : Bank} (header : b.header = s.cal.shadow.header) :
    SameClock s { s with cal := s.cal.setShadow b } where
  resetLow := rfl
  inRun := rfl
  timer := rfl
  active := s.cal.setShadow_active b
  headers bk := by
    rw [Cal.bank_setShadow]
    split
    next shadow => rw [shadow, header]; rfl
    · rfl

theorem sameClock_putEntry (i : EntryId) (e : Entry) : SameClock s (s.putEntry i e) :=
  .setShadow (b := s.cal.shadow.put i e) rfl

theorem sameClock_leaveShadow : SameClock s (s.leaveShadow p) := .setShadow rfl

theorem sameClock_leaveParted : SameClock s (s.leaveParted p) := by
  have plan : SameClock s (((s.setPort p .offline).raiseAll .memberChange (s.otherOnline p)).leavePlan p) := by
    refine .of_changes (parts := [.mbc, .att, .plan]) ?_ (by simp) (by simp) (by simp) ?_
    · exact ChangesOnly.trans (((s.setPort_changes p .offline).mono (by simp)).comp
        ((State.raiseAll_changes _ _ _).mono (by simp)) : ChangesOnly _ _ [.mbc, .att]) (State.leavePlan_changes _ p)
        (by simp) (by simp)
    · rw [(State.leavePlan_changes _ p).mbc (by simp), State.raiseAll_mbc]
      rfl
  have lanes := (plan.trans (sameClock_leaveShadow (p := p))).trans
    (.of_changes (State.leaveLanes_changes _ p) (by simp) (by simp) (by simp)
      (by rw [(State.leaveLanes_changes _ p).mbc (by simp)]))
  have receive := lanes.trans (.of_changes (State.leaveReceive_changes _ p) (by simp) (by simp) (by simp)
    (by rw [(State.leaveReceive_changes _ p).mbc (by simp)]))
  exact receive.trans (.of_changes (State.modRpt_changes _ p _) (by simp) (by simp) (by simp) rfl)

/-! ## The start and the end of RUN -/

theorem State.TimerLawful.headers (h : s.TimerLawful) (bk : BankId) : (s.cal.bank bk).header.inRange := h.2.2.2.2.2.2 bk

/-- The timer at rest, with RESET_N low or in SETUP. -/
theorem timerLawful_of_stopped (stopped : s.timer.state = .stopped) (setup : s.resetLow = false → s.inRun = false)
    (next : s.timer.nextSlot = none) (out : s.timer.syncOut = false) (ends : s.timer.syncEnd = none)
    (header : s.timer.header.inRange) (headers : ∀ bk, (s.cal.bank bk).header.inRange) : s.TimerLawful :=
  ⟨fun _ => stopped, fun high => by simp [stopped, setup high], fun running => by simp [stopped] at running,
    fun _ => ⟨next, out⟩, by rw [out, ends]; rfl, header, headers⟩

/-- The timer at a boundary: it runs, in its first slot, with the header of the active bank. -/
theorem timerLawful_of_boundary (high : s.resetLow = false) (run : s.inRun = true) (running : s.timer.state = .running)
    (next : s.timer.nextSlot.isSome = true) (slot : s.timer.slot = 0) (header : s.timer.header = s.cal.activeBank.header)
    (sync : s.timer.syncOut = s.timer.syncEnd.isSome) (headers : ∀ bk, (s.cal.bank bk).header.inRange) :
    s.TimerLawful := by
  have range : s.timer.header.inRange := header ▸ headers _
  refine ⟨by simp [high], by simp [run, running], fun _ => ⟨next, header, ?_⟩, by simp [running], sync, range, headers⟩
  rw [slot]
  have low := range.1
  simp
  omega

theorem headers_planBoundary (headers : ∀ bk, (s.cal.bank bk).header.inRange) (bk : BankId) :
    (s.planBoundary.cal.bank bk).header.inRange := by
  rcases s.planBoundary_cal with kept | swapped
  · rw [kept]
    exact headers bk
  · rw [swapped, Cal.bank_swap]
    exact headers _

theorem State.TimerLawful.releasePass (h : s.TimerLawful) : s.releasePass.TimerLawful :=
  h.of_same (.of_changes s.releasePass_changes (by simp [passParts]) (by simp [passParts]) (by simp [passParts])
    (by rw [s.releasePass_changes.mbc (by simp [passParts])]))

theorem timerLawful_startTimer (high : s.resetLow = false) (run : s.inRun = true)
    (headers : ∀ bk, (s.cal.bank bk).header.inRange) : s.startTimer.TimerLawful := by
  unfold State.startTimer
  refine State.TimerLawful.releasePass ?_
  have plan := State.planBoundary_changes { s with timer := { s.timer with state := .running, cycle := 0, slot := 0 } }
  have timer := plan.timer (by simp)
  refine timerLawful_of_boundary ?_ ?_ ?_ rfl ?_ rfl rfl fun bk => headers_planBoundary
    (s := { s with timer := { s.timer with state := .running, cycle := 0, slot := 0 } }) headers bk
  · exact (plan.resetLow (by simp)).trans high
  · exact (State.inRun_congr (congrArg Mbc.exchange (plan.mbc (by simp)))).trans run
  · exact congrArg Timer.state timer
  · exact congrArg Timer.slot timer

theorem timerLawful_startRun (high : s.resetLow = false) (headers : ∀ bk, (s.cal.bank bk).header.inRange) :
    s.startRun.TimerLawful := by
  unfold State.startRun
  refine timerLawful_startTimer ?_ ?_ fun bk => ?_
  · exact (State.raiseAll_resetLow ..).trans high
  · exact (State.inRun_congr (congrArg Mbc.exchange (State.raiseAll_mbc ..))).trans rfl
  · rw [State.copyHeader, State.raiseAll_cal, Cal.bank_setActive]
    split
    · exact headers _
    · exact headers bk

theorem State.TimerLawful.returnToSetup (h : s.TimerLawful) : s.returnToSetup.TimerLawful := by
  obtain ⟨_, _, _, _, _, header, headers⟩ := h
  refine timerLawful_of_stopped rfl (fun _ => rfl) rfl rfl rfl header fun bk => ?_
  cases bk
  · exact headers .a
  · exact headers .b

theorem State.TimerLawful.leave (h : s.TimerLawful) : (s.leave p).TimerLawful := by
  rw [State.leave_eq, State.endRunIfEmpty]
  split
  · exact (h.of_same sameClock_leaveParted).returnToSetup
  · exact h.of_same sameClock_leaveParted

theorem State.TimerLawful.slotStartAt (h : s.TimerLawful) (high : s.resetLow = false) (running : s.timer.state = .running)
    (due : Time) : (s.slotStartAt due).TimerLawful := by
  rw [State.slotStartAt_eq]
  refine State.TimerLawful.releasePass ?_
  obtain ⟨low, run, runs, stops, sync, range, headers⟩ := h
  obtain ⟨_, header, _⟩ := runs running
  rcases lt_or_ge (s.timer.slot.toNat + 1) s.timer.header.slots with within | last
  · rw [State.slotBegun_within within, Timer.reach_eq_timeBase]
    have few := range.2.1
    have next : (s.timer.slot + 1).toNat = s.timer.slot.toNat + 1 := by
      rw [BitVec.toNat_add]
      exact Nat.mod_eq_of_lt (by simp; omega)
    refine ⟨low, run, fun _ => ⟨rfl, header, next.trans_lt within⟩, fun stopped => ?_, sync, range, headers⟩
    exact TimerState.noConfusion (running.symm.trans stopped)
  · rw [State.slotBegun_boundary last]
    have plan := (s.turned due).planBoundary_changes
    refine timerLawful_of_boundary ?_ ?_ (by simpa using running) rfl rfl rfl rfl fun bk =>
      headers_planBoundary (s := s.turned due) headers bk
    · exact (plan.resetLow (by simp)).trans high
    · exact (State.inRun_congr (congrArg Mbc.exchange (plan.mbc (by simp)))).trans ((run high).1 running)

/-! ## Every command and happening -/

theorem timerLawful_reads : ReadsOnly State.TimerLawful [.timer, .cal, .mbc, .resetLow] := by
  intro s t same h
  have timer : t.timer = s.timer := same .timer (by simp)
  have cal : t.cal = s.cal := same .cal (by simp)
  have mbc : t.mbc = s.mbc := same .mbc (by simp)
  have resetLow : t.resetLow = s.resetLow := same .resetLow (by simp)
  exact h.of_same ⟨resetLow, by rw [State.inRun, mbc]; rfl, by rw [timer], by rw [cal], fun bk => by rw [cal]⟩

theorem State.TimerLawful.setPort (h : s.TimerLawful) (st : PortState) : (s.setPort p st).TimerLawful := h

theorem State.TimerLawful.markReady (h : s.TimerLawful) : (s.markReady p).TimerLawful := by
  unfold State.markReady
  split
  · exact h.setPort _
  · exact h

theorem State.TimerLawful.clearReady (h : s.TimerLawful) : s.clearReady.TimerLawful :=
  h.of_same (.of_changes s.clearReady_changes (by simp) (by simp) (by simp) (by rw [s.clearReady_mbc]))

theorem State.TimerLawful.setShadowHeader (h : s.TimerLawful) {hd : Header} (range : hd.inRange) :
    (s.setShadowHeader hd).TimerLawful := by
  obtain ⟨low, run, runs, stops, sync, header, headers⟩ := h
  refine ⟨low, run, ?_, stops, sync, header, fun bk => ?_⟩
  · rw [State.setShadowHeader_cal, Cal.activeBank_setShadow]
    exact runs
  · rw [State.setShadowHeader_cal, Cal.bank_setShadow]
    split
    · exact range
    · exact headers bk

theorem State.TimerLawful.syncEnded (h : s.TimerLawful) (now : Time) :
    State.TimerLawful { s with timer := { s.timer.reach now with syncOut := false, syncEnd := none } } := by
  obtain ⟨low, run, runs, stops, _, header, headers⟩ := h
  rw [Timer.reach_eq_timeBase]
  exact ⟨low, run, runs, fun stopped => ⟨(stops stopped).1, rfl⟩, rfl, header, headers⟩

theorem State.TimerLawful.heldInReset (h : s.TimerLawful) :
    State.TimerLawful { s with resetLow := true, timer := s.timer.heldInReset, att := attentionHigh s.att } := by
  obtain ⟨_, _, _, _, _, header, headers⟩ := h
  exact timerLawful_of_stopped rfl (fun high => nomatch high) rfl rfl rfl header headers

theorem timerLawful_reset (setup : s.inRun = false) (timer : s.timer = Timer.reset)
    (cal : s.cal = Cal.reset) : s.TimerLawful := by
  suffices range : s.timer.header.inRange ∧ ∀ bk, (s.cal.bank bk).header.inRange by
    refine timerLawful_of_stopped ?_ (fun _ => setup) ?_ ?_ ?_ range.1 range.2 <;> rw [timer] <;> rfl
  rw [timer, cal]
  refine ⟨?_, fun bk => ?_⟩
  · simp [Timer.reset, Header.inRange, Header.default]
  · cases bk <;> simp [Cal.reset, Cal.bank, Bank.reset, Header.inRange, Header.default]

theorem State.TimerLawful.expire (h : s.TimerLawful) (n : SlotId) (l : Lease) : (s.expire p n l).TimerLawful := by
  rw [State.expire_eq]
  have counted : SameClock s (s.expiring p l) := by
    refine ⟨rfl, rfl, ?_, rfl, fun _ => rfl⟩
    exact Timer.reach_eq_timeBase s.timer l.deadline
  exact h.of_same (counted.trans (.of_changes (State.endWithoutAck_changes _ p n _ _ _) (by simp) (by simp) (by simp)
    (by rw [(State.endWithoutAck_changes _ p n _ _ _).mbc (by simp)])))

/-- Every command and happening keeps the timer in accord with the exchange state and the banks. -/
theorem timerLawful_exec {i : Instr} (touched : touches i [.timer, .cal, .mbc, .resetLow] = true) (h : s.TimerLawful)
    (runs : exec i s = .next t) : t.TimerLawful := by
  have command : ∀ {p code b}, i.command? = some (p, code, b) → (s.resetLow = false → (actOf i s).1.TimerLawful) →
      t.TimerLawful :=
    fun named act => timerLawful_reads.exec_command (by simp) named runs h fun taken =>
      act (State.live_of_takes named taken).1
  have written : ∀ u, SetupWritten s u → u.TimerLawful := fun u w =>
    h.of_same (.of_changes w.changes (by simp) (by simp) (by simp) w.exchange)
  cases i with
  | resetNAssert =>
    cases runs
    exact h.heldInReset
  | resetNRelease straps =>
    cases runs
    exact timerLawful_reset rfl rfl rfl
  | slotStart => exact slotStart_keeps runs h fun due high running _ => h.slotStartAt high running due
  | leaseExpiry p n => exact leaseExpiry_keeps runs h fun l _ => h.expire n l
  | syncOutPulseEnd =>
    cases runs
    split
    · exact h
    · split
      · exact h
      · exact h.syncEnded _
  | setQuota p b => exact command rfl fun _ => setupWrites_keep h written (.inl ⟨p, b, rfl⟩)
  | setRxq p b => exact command rfl fun _ => setupWrites_keep h written (.inr (.inl ⟨p, b, rfl⟩))
  | setLease p b => exact command rfl fun _ => setupWrites_keep h written (.inr (.inr (.inl ⟨p, b, rfl⟩)))
  | setDeadline p b => exact command rfl fun _ => setupWrites_keep h written (.inr (.inr (.inr ⟨p, b, rfl⟩)))
  | setFrame p b =>
    exact command rfl fun _ => setFrame_keeps h (fun u _ h => h.clearReady) fun hd range _ => h.setShadowHeader range
  | claim p b => exact command rfl fun _ => claim_keeps h fun _ _ i _ => h.of_same (sameClock_putEntry i _)
  | writeEntry p b =>
    exact command rfl fun _ => writeEntry_keeps h fun _ _ _ i _ _ _ _ _ _ _ => h.of_same (sameClock_putEntry i _)
  | clearEntry p b => exact command rfl fun _ => clearEntry_keeps h fun _ _ i _ => h.of_same (sameClock_putEntry i _)
  | disown p b => exact command rfl fun _ => disown_keeps h fun _ _ i _ => h.of_same (sameClock_putEntry i _)
  | ready p b =>
    refine command rfl fun high => ready_keeps h (fun _ => h.markReady) fun _ _ => timerLawful_startRun ?_ fun bk => ?_
    · unfold State.markReady
      split <;> exact high
    · exact h.markReady.headers bk
  | unready p b => exact command rfl fun _ => unready_keeps h fun _ => h.setPort _
  | join p b =>
    refine command rfl fun _ => join_keeps h fun _ _ => (h.setPort (p := p) .online).of_same ?_
    exact .of_changes (State.raiseAll_changes _ _ _) (by simp) (by simp) (by simp) (by rw [State.raiseAll_mbc])
  | leave p b => exact command rfl fun _ => leave_keeps h fun _ _ => h.leave
  | portReset p b =>
    refine command rfl fun _ => portReset_keeps h ?_
    have member : (s.resetMembership p).TimerLawful := resetMembership_keeps h (fun _ => h.leave) fun _ => h.setPort _
    exact member
  | _ => exact (Bool.false_ne_true touched).elim

end

/-- Settles O54: the law reads the timer, the headers, the exchange state and RESET_N, and each command or happening that
changes one of them keeps it. -/
theorem stepKeepsTimerLawful : Obligations.StepKeepsTimerLawful := by
  unfold Obligations.StepKeepsTimerLawful
  intro s t h runs
  refine timerLawful_reads.step (by simp) (by simp) (fun _ now h => ?_) (fun i s t => timerLawful_exec) h runs
  exact h.of_same ⟨rfl, rfl, rfl, rfl, fun _ => rfl⟩

end Sys2Proof.Machine
end

section
/-! PROOFS. What release passes, purges and leaves do to the lanes (02_lanes.md, R33 to R38; 06_release_engine.md, R90): a
lane's settings stand, its queue loses messages from its head, and its state can only fall to CLOSED. -/

namespace Sys2Proof.Machine

open Sys2Proof

/-! ## A pass over one lane -/

/-- From `a` to `b`, a lane lost messages from the head of its queue, and its counters may have changed. -/
def Lane.Runs (a b : Lane) : Prop := b.state = a.state ∧ b.settings = a.settings ∧ b.queue <:+ a.queue

/-- From `a` to `b`, a lane ran, and a DRAINING lane left without a message became CLOSED (R34, R35); or nothing befell it. -/
def Lane.Passed (a b : Lane) : Prop :=
  b = a ∨ b.settings = a.settings ∧ b.queue <:+ a.queue ∧
    (b.state = a.state ∧ (a.state = .draining → b.queue ≠ []) ∨ a.state = .draining ∧ b.state = .closed ∧ b.queue = [])

section

variable {a b c : Lane}

theorem Lane.Runs.refl (a : Lane) : a.Runs a := ⟨rfl, rfl, List.suffix_rfl⟩

theorem Lane.Runs.trans (h : a.Runs b) (h' : b.Runs c) : a.Runs c := by
  obtain ⟨state, settings, queue⟩ := h
  obtain ⟨state', settings', queue'⟩ := h'
  exact ⟨state'.trans state, settings'.trans settings, queue'.trans queue⟩

theorem Lane.runs_pop (a : Lane) : a.Runs a.pop := ⟨rfl, rfl, List.tail_suffix _⟩

theorem Lane.runs_count (f : LaneCounters → LaneCounters) (a : Lane) : a.Runs (a.count f) := ⟨rfl, rfl, List.suffix_rfl⟩

theorem Lane.Passed.settings (h : a.Passed b) : b.settings = a.settings := by
  rcases h with rfl | ⟨settings, _⟩
  · rfl
  · exact settings

theorem Lane.Passed.owner (h : a.Passed b) : b.owner = a.owner := congrArg (Option.map LaneSettings.owner) h.settings

/-- An OPEN lane stays OPEN over a pass. -/
theorem Lane.Passed.opened_iff (h : a.Passed b) : b.state = .opened ↔ a.state = .opened := by
  rcases h with rfl | ⟨_, _, ⟨state, _⟩ | ⟨draining, closed, _⟩⟩
  · rfl
  · rw [state]
  · simp [draining, closed]

/-- A CLOSED lane stays CLOSED over a pass. -/
theorem Lane.Passed.closed (h : a.Passed b) (closed : a.state = .closed) : b.state = .closed := by
  rcases h with rfl | ⟨_, _, ⟨state, _⟩ | ⟨_, closed', _⟩⟩
  · exact closed
  · rw [state, closed]
  · exact closed'

end

/-! ## The lanes of two states -/

/-- From `s` to `t` every lane at most lost messages from the head of its queue, and none but `l` at all. -/
def LaneRuns (l : LaneId) (s t : State) : Prop := (s.lane l).Runs (t.lane l) ∧ OnlyAtIndex l s.lanes t.lanes

section

variable {s t u : State} {l : LaneId}

theorem LaneRuns.of_lanes (h : t.lanes = s.lanes) : LaneRuns l s t := by
  unfold LaneRuns State.lane OnlyAtIndex
  rw [h]
  exact ⟨.refl _, fun _ _ => rfl⟩

theorem LaneRuns.of_changes {parts : List Part} (changes : ChangesOnly s t parts) (apart : Part.lanes ∉ parts) :
    LaneRuns l s t := .of_lanes (changes.lanes apart)

theorem LaneRuns.trans (h : LaneRuns l s t) (h' : LaneRuns l t u) : LaneRuns l s u :=
  ⟨h.1.trans h'.1, fun k other => (h'.2 k other).trans (h.2 k other)⟩

theorem laneRuns_modLane {f : Lane → Lane} (runs : (s.lane l).Runs (f (s.lane l))) : LaneRuns l s (s.modLane l f) := by
  refine ⟨?_, s.modLane_onlyAt l f⟩
  rw [State.lane_modLane, if_pos rfl]
  exact runs

theorem laneRuns_commit (d : DescId) (m : Desc) (st : Stamp) : LaneRuns l s (s.commit l d m st) := by
  have popped : LaneRuns l s (s.modLane l fun ln => (Lane.pop ln).count
      (LaneCounters.release (s.destsAt m .noRoom).length)) :=
    laneRuns_modLane ((Lane.runs_pop _).trans (Lane.runs_count _ _))
  refine popped.trans (.of_lanes ?_)
  unfold State.commit
  dsimp only
  have kept : ∀ v, ((s.destsAt m .noRoom).foldl countMiss ((s.destsAt m .room).foldl (fun s q => s.enqueue q d .tail)
      ((s.modLane l fun ln => (Lane.pop ln).count (LaneCounters.release (s.destsAt m .noRoom).length)).setDesc d v))).lanes =
      (s.modLane l fun ln => (Lane.pop ln).count (LaneCounters.release (s.destsAt m .noRoom).length)).lanes := fun v => by
    rw [(ChangesOnly.foldl _ (fun s q => countMiss_changes s q) _ _).lanes (by simp),
      (ChangesOnly.foldl _ (fun s q => s.enqueue_changes q d .tail) _ _).lanes (by simp)]
    rfl
  split
  · rw [State.endMessage_lanes, kept]
  · rw [kept]

theorem laneRuns_discardStale (d : DescId) : LaneRuns l s (s.discardStale l d) := by
  have popped : LaneRuns l s (s.modLane l Lane.pop) := laneRuns_modLane (Lane.runs_pop _)
  exact (popped.trans (.of_lanes (State.endMessage_lanes ..))).trans (laneRuns_modLane (Lane.runs_count _ _))

theorem laneRuns_passLoop (tm : LaneSettings) (st : Stamp) (ds : List DescId) (left : Nat) (any : Bool) :
    LaneRuns l s (passLoop l tm st ds left any s) := by
  induction ds generalizing s left any with
  | nil =>
    cases left with
    | zero => exact .of_lanes rfl
    | succ n =>
      unfold passLoop
      split
      · exact .of_lanes rfl
      · exact laneRuns_modLane (Lane.runs_count _ _)
  | cons d ds ih =>
    cases left with
    | zero => exact .of_lanes rfl
    | succ n =>
      unfold passLoop
      split
      · exact (laneRuns_modLane (Lane.runs_pop _)).trans (ih _ _)
      · split
        · exact (laneRuns_discardStale d).trans (ih _ _)
        · split
          · exact laneRuns_modLane (Lane.runs_count _ _)
          · exact (laneRuns_commit d _ st).trans (ih _ _)

theorem laneRuns_purgeQueue (ds : List DescId) : LaneRuns l s (purgeQueue l ds s) := by
  induction ds generalizing s with
  | nil => exact .of_lanes rfl
  | cons d ds ih =>
    rw [purgeQueue_cons]
    have popped : LaneRuns l s (s.modLane l Lane.pop) := laneRuns_modLane (Lane.runs_pop _)
    exact (popped.trans (.of_lanes (State.endMessage_lanes ..))).trans ih

/-! ## Release passes -/

/-- R34, R90: a pass leaves no DRAINING lane without a message. -/
theorem passed_drained (p : Port) (runs : LaneRuns l s t) (k : LaneId) : (s.lane k).Passed ((t.drained l p).lane k) := by
  obtain ⟨⟨state, settings, queue⟩, others⟩ := runs
  unfold State.drained
  by_cases own : k = l
  · subst own
    split
    next empty =>
      have lane : (((t.modLane k (Lane.become .closed)).raise .laneClosed p).lane k) =
          { t.lane k with state := .closed } := by
        change (t.modLane k (Lane.become .closed)).lane k = _
        rw [State.lane_modLane, if_pos rfl]
        rfl
      rw [lane]
      exact .inr ⟨settings, queue, .inr ⟨state.symm.trans empty.1, rfl, empty.2⟩⟩
    next more => exact .inr ⟨settings, queue, .inl ⟨state, fun draining none => more ⟨state.trans draining, none⟩⟩⟩
  · refine .inl ?_
    split
    · change (t.modLane l (Lane.become .closed)).lane k = _
      rw [State.lane_modLane, if_neg own]
      exact others k own
    · exact others k own

theorem State.releasePass_passed (s : State) (l : LaneId) : (s.lane l).Passed (s.releasePass.lane l) := by
  unfold State.releasePass State.passLane
  split
  · exact .inl rfl
  · split
    · exact .inl rfl
    · split
      · exact .inl rfl
      · exact passed_drained _ (laneRuns_passLoop _ _ _ _ _) l

/-! ## Purges -/

theorem purgeQueue_lane (ds rest : List DescId) (queue : (s.lane l).queue = ds ++ rest) :
    (purgeQueue l ds s).lane l = { s.lane l with queue := rest } := by
  induction ds generalizing s with
  | nil =>
    rw [List.nil_append] at queue
    rw [← queue]
    rfl
  | cons d ds ih =>
    have lane : ((s.modLane l Lane.pop).endMessage d .purged).lane l = (s.lane l).pop := by
      rw [State.lane, State.endMessage_lanes]
      exact (State.lane_modLane ..).trans (if_pos rfl)
    rw [purgeQueue_cons, ih (by rw [lane, Lane.pop, queue]; rfl), lane]
    rfl

/-- R35: a purge empties the queue of its lane, and changes no other lane. -/
theorem State.lane_purge (s : State) (l k : LaneId) :
    (s.purge l).lane k = if k = l then { s.lane l with queue := [] } else s.lane k := by
  split
  next own =>
    subst own
    exact purgeQueue_lane (s.lane k).queue [] (List.append_nil _).symm
  next other => exact (laneRuns_purgeQueue (s.lane l).queue).2 k other

theorem State.lane_purgeClose (s : State) (l k : LaneId) : (s.purgeClose l).lane k =
    if k = l then { s.lane l with queue := [], state := (s.lane l).purgeState } else s.lane k := by
  rw [State.purgeClose, State.lane_modLane, State.lane_purge]
  split <;> rfl

theorem State.purgeClose_passed (s : State) (l k : LaneId) : (s.lane k).Passed ((s.purgeClose l).lane k) := by
  rw [State.lane_purgeClose]
  split
  next own =>
    subst own
    refine .inr ⟨rfl, List.nil_suffix, ?_⟩
    unfold Lane.purgeState
    split
    next draining => exact .inr ⟨draining, rfl, rfl⟩
    next other => exact .inl ⟨rfl, fun draining => absurd draining other⟩
  · exact .inl rfl

/-! ## Leaves -/

/-- R38: the lane is OPEN or DRAINING and owned by `p`. -/
def Lane.leavesWith (p : Port) (ln : Lane) : Bool := ln.state != .closed && ln.owner == some p

theorem leaveLane_eq (s : State) (p : Port) (l : LaneId) : leaveLane p s l =
    if (s.lane l).leavesWith p = true then (s.purge l).modLane l (Lane.become .closed) else s := rfl

theorem lane_leaveLane (s : State) (p : Port) (l k : LaneId) : (leaveLane p s l).lane k =
    if k = l ∧ (s.lane l).leavesWith p = true then { s.lane l with state := .closed, queue := [] } else s.lane k := by
  rw [leaveLane_eq]
  by_cases leaves : (s.lane l).leavesWith p = true
  · rw [if_pos leaves, State.lane_modLane, State.lane_purge]
    by_cases own : k = l <;> simp [own, leaves, Lane.become]
  · rw [if_neg leaves, if_neg fun both => leaves both.2]

theorem lane_foldl_leaveLane (p : Port) (ls : List LaneId) (nodup : ls.Nodup) (s : State) (k : LaneId) :
    (ls.foldl (leaveLane p) s).lane k =
      if k ∈ ls ∧ (s.lane k).leavesWith p = true then { s.lane k with state := .closed, queue := [] } else s.lane k := by
  induction ls generalizing s with
  | nil => simp
  | cons l ls ih =>
    obtain ⟨fresh, nodup⟩ := List.nodup_cons.1 nodup
    rw [List.foldl_cons, ih nodup, lane_leaveLane]
    by_cases own : k = l
    · subst own
      by_cases leaves : (s.lane k).leavesWith p = true <;> simp [fresh, leaves]
    · simp [own]

/-- R38: the leave of `p` closes and empties its OPEN and DRAINING lanes, and changes no other. -/
theorem State.lane_leaveLanes (s : State) (p : Port) (k : LaneId) : (s.leaveLanes p).lane k =
    if (s.lane k).leavesWith p = true then { s.lane k with state := .closed, queue := [] } else s.lane k := by
  rw [State.leaveLanes, lane_foldl_leaveLane p _ (List.nodup_finRange 32)]
  simp

theorem State.lane_leaveParted (s : State) (p : Port) (k : LaneId) : (s.leaveParted p).lane k =
    if (s.lane k).leavesWith p = true then { s.lane k with state := .closed, queue := [] } else s.lane k := by
  have lanes : ((((s.setPort p .offline).raiseAll .memberChange (s.otherOnline p)).leavePlan p).leaveShadow p).lanes =
      s.lanes := by
    rw [(State.leaveShadow_changes _ p).lanes (by simp), (State.leavePlan_changes _ p).lanes (by simp), State.raiseAll_lanes]
    rfl
  have receive : (s.leaveParted p).lanes =
      (((((s.setPort p .offline).raiseAll .memberChange (s.otherOnline p)).leavePlan p).leaveShadow p).leaveLanes p).lanes :=
    (State.leaveReceive_changes _ p).lanes (by simp)
  rw [State.lane, receive]
  refine (State.lane_leaveLanes _ p k).trans ?_
  unfold State.lane
  rw [lanes]

theorem State.leave_lanes (s : State) (p : Port) : (s.leave p).lanes = (s.leaveParted p).lanes := by
  rw [State.leave_eq]
  exact (State.endRunIfEmpty_changes _).lanes (by simp)

end

end Sys2Proof.Machine
end

section
/-! PROOFS. The law of the calendar entries (03_calendar_banks.md, R28, R41, R58): an entry's owner owns the lane it names,
and in SETUP every entry is EMPTY and unowned. -/

namespace Sys2Proof.Machine

open Sys2Proof

/-! ## One entry -/

/-- R28, R41: an unowned entry is EMPTY, a burst is 1 to 4, and a lane that is not CLOSED has the entry's owner. -/
def Entry.LawfulIn (s : State) (e : Entry) : Prop :=
  (e.owner = none → e.release = none) ∧
    ∀ r, e.release = some r → 1 ≤ r.burst ∧ r.burst ≤ 4 ∧ ((s.lane r.lane).state ≠ .closed → e.owner = (s.lane r.lane).owner)

section

variable {s t u : State} {p : Port} {e : Entry}

theorem State.entriesLawful_iff : s.EntriesLawful ↔ (∀ bk i, ((s.cal.bank bk).entries.at i).LawfulIn s) ∧
    (s.inRun = false → ∀ bk i, (s.cal.bank bk).entries.at i = Entry.unowned) :=
  ⟨fun ⟨owned, burst, setup⟩ => ⟨fun bk i => ⟨owned bk i, burst bk i⟩, setup⟩,
    fun ⟨entries, setup⟩ => ⟨fun bk i => (entries bk i).1, fun bk i => (entries bk i).2, setup⟩⟩

theorem Entry.lawfulIn_empty (s : State) (o : Option Port) : (⟨none, o⟩ : Entry).LawfulIn s := ⟨fun _ => rfl, by rintro _ ⟨⟩⟩

/-- From `s` to `t` no lane comes into being, and none changes its owner. -/
def LanesStand (s t : State) : Prop :=
  ∀ l, (t.lane l).state ≠ .closed → (s.lane l).state ≠ .closed ∧ (t.lane l).owner = (s.lane l).owner

theorem LanesStand.of_lanes (h : t.lanes = s.lanes) : LanesStand s t := fun l opened => by
  unfold State.lane at *
  rw [h] at opened ⊢
  exact ⟨opened, rfl⟩

theorem LanesStand.of_passed (passed : ∀ l, (s.lane l).Passed (t.lane l)) : LanesStand s t :=
  fun l opened => ⟨fun closed => opened ((passed l).closed closed), (passed l).owner⟩

theorem lanesStand_leaveParted : LanesStand s (s.leaveParted p) := fun l opened => by
  rw [State.lane_leaveParted] at opened ⊢
  split at opened
  · exact absurd rfl opened
  next stays =>
    rw [if_neg stays]
    exact ⟨opened, rfl⟩

theorem Entry.LawfulIn.of_stand (h : e.LawfulIn s) (lanes : LanesStand s t) : e.LawfulIn t := by
  obtain ⟨owned, burst⟩ := h
  refine ⟨owned, fun r named => ?_⟩
  obtain ⟨low, high, owner⟩ := burst r named
  refine ⟨low, high, fun opened => ?_⟩
  obtain ⟨before, same⟩ := lanes r.lane opened
  rw [owner before, same]

theorem Entry.LawfulIn.without (h : e.LawfulIn s) : (e.without p).LawfulIn s := by
  unfold Entry.without
  split
  · exact Entry.lawfulIn_empty s none
  · exact h

theorem Entry.without_unowned : Entry.unowned.without p = Entry.unowned := by simp [Entry.without, Entry.unowned]

/-! ## Every entry of both banks -/

theorem State.EntriesLawful.of_stand (h : s.EntriesLawful) (cal : t.cal = s.cal) (exchange : t.inRun = s.inRun)
    (lanes : LanesStand s t) : t.EntriesLawful := by
  obtain ⟨entries, setup⟩ := State.entriesLawful_iff.1 h
  refine State.entriesLawful_iff.2 ?_
  rw [cal, exchange]
  exact ⟨fun bk i => (entries bk i).of_stand lanes, setup⟩

theorem State.EntriesLawful.of_changes (h : s.EntriesLawful) {parts : List Part} (changes : ChangesOnly s t parts)
    (cal : Part.cal ∉ parts) (lanes : Part.lanes ∉ parts) (exchange : t.mbc.exchange = s.mbc.exchange) :
    t.EntriesLawful :=
  h.of_stand (changes.cal cal) (State.inRun_congr exchange) (.of_lanes (changes.lanes lanes))

/-- Each entry of the banks of `t` stands in a bank of `s`, at the same index. -/
def EntriesFrom (s t : State) : Prop := ∀ bk, ∃ bk', ∀ i, (t.cal.bank bk).entries.at i = (s.cal.bank bk').entries.at i

theorem entriesFrom_planBoundary (s : State) : EntriesFrom s s.planBoundary := fun bk => by
  rcases s.planBoundary_cal with kept | swapped
  · exact ⟨bk, fun i => by rw [kept]⟩
  · exact ⟨s.cal.active.other, fun i => by rw [swapped, Cal.bank_swap]; rfl⟩

theorem EntriesFrom.trans (h : EntriesFrom s t) (h' : EntriesFrom t u) : EntriesFrom s u := fun bk => by
  obtain ⟨k, after⟩ := h' bk
  obtain ⟨j, before⟩ := h k
  exact ⟨j, fun i => (after i).trans (before i)⟩

theorem EntriesFrom.of_cal (h : t.cal = s.cal) : EntriesFrom s t := fun bk => ⟨bk, fun i => by rw [h]⟩

theorem entriesFrom_copyHeader (s : State) : EntriesFrom s s.copyHeader := fun bk => by
  refine ⟨bk, fun i => ?_⟩
  rw [State.copyHeader, Cal.bank_setActive]
  split
  next active => rw [active]; rfl
  · rfl

theorem State.EntriesLawful.of_from (h : s.EntriesLawful) (entries : EntriesFrom s t) (exchange : t.inRun = s.inRun)
    (lanes : LanesStand s t) : t.EntriesLawful := by
  obtain ⟨lawful, setup⟩ := State.entriesLawful_iff.1 h
  refine State.entriesLawful_iff.2 ⟨fun bk i => ?_, fun off bk i => ?_⟩
  · obtain ⟨k, same⟩ := entries bk
    rw [same]
    exact (lawful k i).of_stand lanes
  · obtain ⟨k, same⟩ := entries bk
    rw [same]
    exact setup (exchange ▸ off) k i

theorem entriesLawful_of_unowned (unowned : ∀ bk i, (s.cal.bank bk).entries.at i = Entry.unowned) : s.EntriesLawful :=
  State.entriesLawful_iff.2 ⟨fun bk i => unowned bk i ▸ Entry.lawfulIn_empty s none, fun _ => unowned⟩

/-- An edit of one shadow entry, in RUN. -/
theorem State.EntriesLawful.putEntry (h : s.EntriesLawful) (run : s.inRun = true) (i : EntryId) (lawful : e.LawfulIn s) :
    (s.putEntry i e).EntriesLawful := by
  obtain ⟨entries, _⟩ := State.entriesLawful_iff.1 h
  refine State.entriesLawful_iff.2 ⟨fun bk j => ?_, fun off => Bool.noConfusion (run.symm.trans off)⟩
  refine Entry.LawfulIn.of_stand (s := s) ?_ (.of_lanes rfl)
  rw [State.putEntry_cal, Cal.bank_setShadow]
  split
  · rw [Bank.put_entries, Tbl.at_put]
    split
    · exact lawful
    · exact entries _ j
  · exact entries bk j

theorem State.EntriesLawful.setShadowHeader (h : s.EntriesLawful) (hd : Header) : (s.setShadowHeader hd).EntriesLawful := by
  refine h.of_from (fun bk => ⟨bk, fun i => ?_⟩) rfl (.of_lanes rfl)
  rw [State.setShadowHeader_cal, Cal.bank_setShadow]
  split
  next shadow => rw [shadow]; rfl
  · rfl

theorem State.EntriesLawful.openLane (h : s.EntriesLawful) {l : LaneId} (unnamed : s.cal.names l = false)
    (settings : LaneSettings) : (s.modLane l (openedLane settings)).EntriesLawful := by
  obtain ⟨entries, setup⟩ := State.entriesLawful_iff.1 h
  have avoids : ∀ bk i r, ((s.cal.bank bk).entries.at i).release = some r → r.lane ≠ l := by
    intro bk i r named own
    have inBank : (s.cal.bank bk).names l = true := ((s.cal.bank bk).names_iff l).2 ⟨i, r, named, own⟩
    cases bk <;> simp_all [Cal.names, Cal.bank]
  refine State.entriesLawful_iff.2 ⟨fun bk i => ?_, setup⟩
  obtain ⟨owned, burst⟩ := entries bk i
  refine ⟨owned, fun r named => ?_⟩
  rw [State.lane_modLane, if_neg (avoids bk i r named)]
  exact burst r named

/-! ## Slot starts, the start of RUN and leaves -/

theorem State.EntriesLawful.releasePass (h : s.EntriesLawful) : s.releasePass.EntriesLawful :=
  h.of_stand (s.releasePass_changes.cal (by simp [passParts]))
    (State.inRun_congr (by rw [s.releasePass_changes.mbc (by simp [passParts])])) (.of_passed s.releasePass_passed)

theorem State.slotBegun_cal (s : State) (due : Time) : (s.slotBegun due).cal = s.cal ∨
    (s.slotBegun due).cal = (s.turned due).planBoundary.cal := by
  rcases lt_or_ge (s.timer.slot.toNat + 1) s.timer.header.slots with within | last
  · rw [State.slotBegun_within within]
    exact .inl rfl
  · rw [State.slotBegun_boundary last]
    exact .inr rfl

theorem State.EntriesLawful.slotStartAt (h : s.EntriesLawful) (due : Time) : (s.slotStartAt due).EntriesLawful := by
  rw [State.slotStartAt_eq]
  refine State.EntriesLawful.releasePass ?_
  have changes := s.slotBegun_changes due
  refine h.of_from ?_ (State.inRun_congr (by rw [changes.mbc (by simp)])) (.of_lanes (changes.lanes (by simp)))
  rcases s.slotBegun_cal due with kept | turned
  · exact .of_cal kept
  · intro bk
    rw [turned]
    exact entriesFrom_planBoundary (s.turned due) bk

/-- R80: the timer RUNNING in cycle 0, before its boundary. -/
def State.started (s : State) : State := { s with timer := { s.timer with state := .running, cycle := 0, slot := 0 } }

theorem State.startTimer_cal (s : State) : s.startTimer.cal = s.started.planBoundary.cal := by
  unfold State.startTimer
  exact (State.releasePass_changes _).cal (by simp [passParts])

theorem State.startTimer_entries (s : State) : EntriesFrom s s.startTimer := fun bk => by
  rw [State.startTimer_cal]
  exact entriesFrom_planBoundary s.started bk

theorem State.startRun_entries (s : State) : EntriesFrom s s.startRun := by
  have told : EntriesFrom s (State.raiseAll { s with mbc := s.mbc.start } .exchangeRun s.readyPorts) :=
    .of_cal (State.raiseAll_cal ..)
  exact (told.trans (entriesFrom_copyHeader _)).trans (State.startTimer_entries _)

theorem State.EntriesLawful.startRun (h : s.EntriesLawful) (setup : s.inRun = false) : s.startRun.EntriesLawful := by
  refine entriesLawful_of_unowned fun bk i => ?_
  obtain ⟨k, same⟩ := s.startRun_entries bk
  rw [same]
  exact h.2.2 setup k i

theorem State.leaveParted_cal (s : State) (p : Port) : (s.leaveParted p).cal =
    s.cal.setShadow { s.cal.shadow with entries := s.cal.shadow.entries.map (Entry.without p) } := by
  have receive : (s.leaveParted p).cal =
      ((((s.setPort p .offline).raiseAll .memberChange (s.otherOnline p)).leavePlan p).leaveShadow p).cal :=
    ((State.leaveReceive_changes _ p).cal (by simp)).trans ((State.leaveLanes_changes _ p).cal (by simp))
  rw [receive, State.leaveShadow, (State.leavePlan_changes _ p).cal (by simp), State.raiseAll_cal]
  rfl

theorem State.leaveParted_entry (s : State) (p : Port) (bk : BankId) (i : EntryId) :
    ((s.leaveParted p).cal.bank bk).entries.at i =
      if bk = s.cal.active.other then ((s.cal.bank bk).entries.at i).without p else (s.cal.bank bk).entries.at i := by
  rw [State.leaveParted_cal, Cal.bank_setShadow]
  split
  next shadow =>
    rw [Tbl.at_map, shadow]
    rfl
  · rfl

theorem State.EntriesLawful.leaveParted (h : s.EntriesLawful) : (s.leaveParted p).EntriesLawful := by
  obtain ⟨entries, setup⟩ := State.entriesLawful_iff.1 h
  refine State.entriesLawful_iff.2 ⟨fun bk i => ?_, fun off bk i => ?_⟩
  · rw [State.leaveParted_entry]
    refine Entry.LawfulIn.of_stand (s := s) ?_ lanesStand_leaveParted
    split
    · exact (entries bk i).without
    · exact entries bk i
  · have off' : s.inRun = false := by
      rw [← off]
      exact (State.inRun_congr (by rw [s.leaveParted_mbc p])).symm
    rw [State.leaveParted_entry, setup off' bk i, Entry.without_unowned, ite_self]

theorem entriesLawful_returnToSetup (s : State) : s.returnToSetup.EntriesLawful := by
  refine entriesLawful_of_unowned fun bk i => ?_
  cases bk
  · exact Tbl.at_fill _ i
  · exact Tbl.at_fill _ i

theorem State.EntriesLawful.leave (h : s.EntriesLawful) : (s.leave p).EntriesLawful := by
  rw [State.leave_eq, State.endRunIfEmpty]
  split
  · exact entriesLawful_returnToSetup _
  · exact h.leaveParted

/-! ## Every command and happening -/

theorem entriesLawful_reads : ReadsOnly State.EntriesLawful [.cal, .lanes, .mbc] := fun s t same h =>
  h.of_stand (same .cal (by simp)) (State.inRun_congr (congrArg Mbc.exchange (same .mbc (by simp))))
    (.of_lanes (same .lanes (by simp)))

theorem State.EntriesLawful.markReady (h : s.EntriesLawful) : (s.markReady p).EntriesLawful := by
  unfold State.markReady
  split
  · exact h
  · exact h

theorem State.markReady_inRun (s : State) (p : Port) : (s.markReady p).inRun = s.inRun := by
  unfold State.markReady
  split <;> rfl

theorem lanesStand_modLane {l : LaneId} {f : Lane → Lane} (settings : (f (s.lane l)).settings = (s.lane l).settings)
    (opened : (s.lane l).state ≠ .closed) : LanesStand s (s.modLane l f) := fun k after => by
  rw [State.lane_modLane] at after ⊢
  split
  next own => subst own; exact ⟨opened, congrArg (Option.map _) settings⟩
  next other => rw [if_neg other] at after; exact ⟨after, rfl⟩

/-- Every command and happening keeps the entries lawful. -/
theorem entriesLawful_exec {i : Instr} (touched : touches i [.cal, .lanes, .mbc] = true) (h : s.EntriesLawful)
    (runs : exec i s = .next t) : t.EntriesLawful := by
  have command : ∀ {p code b}, i.command? = some (p, code, b) → (actOf i s).1.EntriesLawful → t.EntriesLawful :=
    fun named act => entriesLawful_reads.exec_command (by simp) named runs h fun _ => act
  have written : ∀ u, SetupWritten s u → u.EntriesLawful := fun u w =>
    h.of_changes w.changes (by simp) (by simp) w.exchange
  cases i with
  | resetNRelease straps =>
    cases runs
    refine entriesLawful_of_unowned fun bk i => ?_
    cases bk
    · exact Tbl.at_fill _ i
    · exact Tbl.at_fill _ i
  | slotStart => exact slotStart_keeps runs h fun due _ _ _ => h.slotStartAt due
  | setQuota p b => exact command rfl (setupWrites_keep h written (.inl ⟨p, b, rfl⟩))
  | setRxq p b => exact command rfl (setupWrites_keep h written (.inr (.inl ⟨p, b, rfl⟩)))
  | setLease p b => exact command rfl (setupWrites_keep h written (.inr (.inr (.inl ⟨p, b, rfl⟩))))
  | setDeadline p b => exact command rfl (setupWrites_keep h written (.inr (.inr (.inr ⟨p, b, rfl⟩))))
  | setFrame p b =>
    refine command rfl (setFrame_keeps h (fun u _ h => ?_) fun hd _ _ => h.setShadowHeader hd)
    exact h.of_changes u.clearReady_changes (by simp) (by simp) (by rw [u.clearReady_mbc])
  | claim p b => exact command rfl (claim_keeps h fun run _ i _ => h.putEntry run i (Entry.lawfulIn_empty s _))
  | clearEntry p b => exact command rfl (clearEntry_keeps h fun run _ i _ => h.putEntry run i (Entry.lawfulIn_empty s _))
  | disown p b => exact command rfl (disown_keeps h fun run _ i _ => h.putEntry run i (Entry.lawfulIn_empty s _))
  | writeEntry p b =>
    refine command rfl (writeEntry_keeps h fun run _ _ i l n _ owner low high _ => h.putEntry run i ⟨by rintro ⟨⟩, ?_⟩)
    rintro _ ⟨⟩
    exact ⟨low, high, fun _ => owner.symm⟩
  | openLane p b => exact command rfl (openLane_keeps h fun _ _ l _ unnamed _ => h.openLane unnamed _)
  | closeLane p b =>
    refine command rfl (closeLane_keeps h fun l opened _ => h.of_stand rfl rfl (lanesStand_modLane rfl ?_))
    simp [opened]
  | purgeLane p b =>
    refine command rfl (purgeLane_keeps h fun l _ => h.of_stand ?_ ?_ (.of_passed (s.purgeClose_passed l)))
    · exact (State.purge_changes s l).cal (by simp)
    · exact State.inRun_congr (congrArg Mbc.exchange ((State.purge_changes s l).mbc (by simp)))
  | send p b =>
    refine command rfl (send_keeps h (fun _ => h) fun _ l _ d a opened _ _ _ _ lane _ _ _ _ => ?_)
    have granted : (s.grant d a).EntriesLawful := h
    exact granted.of_stand rfl rfl (lanesStand_modLane rfl (lane ▸ (by simp [opened] : (s.lane l).state ≠ .closed)))
  | ready p b =>
    exact command rfl (ready_keeps h (fun _ => h.markReady) fun setup _ =>
      h.markReady.startRun ((s.markReady_inRun p).trans setup))
  | unready p b => exact command rfl (unready_keeps h fun _ => h)
  | join p b =>
    refine command rfl (join_keeps h fun _ _ => ?_)
    exact h.of_stand (State.raiseAll_cal ..) (State.inRun_congr (by rw [State.raiseAll_mbc]; rfl))
      (.of_lanes (State.raiseAll_lanes ..))
  | leave p b => exact command rfl (leave_keeps h fun _ _ => h.leave)
  | portReset p b =>
    refine command rfl (portReset_keeps h ?_)
    have member : (s.resetMembership p).EntriesLawful := resetMembership_keeps h (fun _ => h.leave) fun _ => h
    exact member
  | _ => exact (Bool.false_ne_true touched).elim

end

/-- Settles O52: no lane that is not CLOSED changes its owner, OPEN_LANE opens no lane that an entry names, and every edit
of an entry leaves it lawful. -/
theorem stepKeepsEntriesLawful : Obligations.StepKeepsEntriesLawful := by
  unfold Obligations.StepKeepsEntriesLawful
  intro s t h runs
  exact entriesLawful_reads.step (by simp) (by simp) (fun _ _ h => h) (fun i s t => entriesLawful_exec) h runs

end Sys2Proof.Machine
end

section
/-! PROOFS. The law of the Plan Coordinator (04_plan_proposals.md, R59, R63, R66, R71 to R76): a standing proposal is in
accord with the port states, and the shadow it froze stays valid (R55). -/

namespace Sys2Proof.Machine

open Sys2Proof

/-! ## The plan part of a leave -/

theorem Bank.ownedBy_eq (b : Bank) (p : Port) :
    b.ownedBy p = (List.finRange 256).any fun i => (b.entries.at i).owner == some p := by
  rw [Bool.eq_iff_iff]
  simp only [Bank.ownedBy, List.any_eq_true, Tbl.mem_toList_iff, List.mem_finRange, true_and]
  exact ⟨fun ⟨_, ⟨i, rfl⟩, own⟩ => ⟨i, own⟩, fun ⟨i, own⟩ => ⟨_, ⟨i, rfl⟩, own⟩⟩

/-- The votes of a proposal without the voter `p`, which is complete when every other voter has voted YES. -/
theorem Proposal.allYes_without (r : Proposal) (p : Port) :
    ({ r with voters := r.voters.set p false, yes := r.yes.set p false } : Proposal).allYes =
      Port.all.all fun q => q == p || !r.voters.get q || r.yes.get q := by
  unfold Proposal.allYes
  congr 1
  funext q
  by_cases own : q = p
  · simp [own]
  · simp [own, beq_eq_false_iff_ne.2 own]

/-- R70, R73, R74: the plan after the Plan Coordinator's part of a leave. -/
theorem State.leavePlan_plan (s : State) (p : Port) : (s.leavePlan p).plan = s.planAfterLeave p := by
  unfold State.leavePlan State.planAfterLeave State.decidedByLeave
  have owned : s.cal.shadow.ownedBy p = (List.finRange 256).any fun i => (s.shadowEntry i).owner == some p :=
    s.cal.shadow.ownedBy_eq p
  rw [← owned]
  cases standing : s.plan.proposal with
  | none => rfl
  | some r =>
    dsimp only
    by_cases own : r.proposer = p
    · simp only [if_pos own, State.decidePlan_plan]
    · by_cases entry : s.cal.shadow.ownedBy p = true
      · simp only [if_neg own, if_pos entry, State.decidePlan_plan]
      · simp only [if_neg own, if_neg entry]
        split
        · rw [Proposal.update_eq, Proposal.allYes_without]
          rfl
        · rfl

theorem State.leaveParted_plan (s : State) (p : Port) : (s.leaveParted p).plan = s.planAfterLeave p := by
  have receive : (s.leaveParted p).plan =
      (((s.setPort p .offline).raiseAll .memberChange (s.otherOnline p)).leavePlan p).plan :=
    ((State.leaveReceive_changes _ p).plan (by simp)).trans ((State.leaveLanes_changes _ p).plan (by simp))
  rw [receive, State.leavePlan_plan]
  unfold State.planAfterLeave State.decidedByLeave State.shadowEntry
  rw [State.raiseAll_plan, State.raiseAll_cal]
  rfl

/-- R74: the proposal that a leave of `p` leaves standing, `p` having been a voter. -/
def Proposal.withoutVoter (r : Proposal) (p : Port) : Proposal :=
  { r with
    voters := r.voters.set p false
    yes := r.yes.set p false
    state := if Port.all.all fun q => q == p || !r.voters.get q || r.yes.get q then .accepted else r.state }

section

variable {s : State} {p : Port} {r : Proposal}

theorem State.planAfterLeave_of_decided {o : PlanOutcome} (decided : s.decidedByLeave p = some (r, o)) :
    s.planAfterLeave p = { s.plan with proposal := none, last := some ⟨r.number, o⟩ } := by
  unfold State.planAfterLeave
  rw [decided]

theorem State.planAfterLeave_of_none (none : s.plan.proposal = none) : s.planAfterLeave p = s.plan := by
  unfold State.planAfterLeave State.decidedByLeave
  rw [none]

theorem State.planAfterLeave_of_undecided (undecided : s.decidedByLeave p = none) (standing : s.plan.proposal = some r) :
    s.planAfterLeave p = if r.voters.get p then { s.plan with proposal := some (r.withoutVoter p) } else s.plan := by
  unfold State.planAfterLeave
  rw [undecided, standing]
  rfl

/-- R73: a leave that decides nothing is of a port that did not propose and owns no shadow entry. -/
theorem State.undecided_leave (undecided : s.decidedByLeave p = none) (standing : s.plan.proposal = some r) :
    r.proposer ≠ p ∧ ∀ i, (s.shadowEntry i).owner ≠ some p := by
  unfold State.decidedByLeave at undecided
  rw [standing] at undecided
  dsimp only at undecided
  split at undecided
  · cases undecided
  next other =>
    split at undecided
    · cases undecided
    next unowned => exact ⟨other, by simpa using unowned⟩

/-- R73, R74: a proposal that stands after the leave of `p` stood before it; `p` was not its proposer and owned no shadow
entry. -/
theorem State.planAfterLeave_standing {r' : Proposal} (standing : (s.planAfterLeave p).proposal = some r') :
    ∃ r, s.plan.proposal = some r ∧ r.proposer ≠ p ∧ (∀ i, (s.shadowEntry i).owner ≠ some p) ∧
      (r' = r ∧ r.voters.get p = false ∨ r' = r.withoutVoter p) := by
  cases before : s.plan.proposal with
  | none =>
    rw [State.planAfterLeave_of_none before, before] at standing
    cases standing
  | some r =>
    cases decided : s.decidedByLeave p with
    | some ro =>
      rw [State.planAfterLeave_of_decided decided] at standing
      cases standing
    | none =>
      obtain ⟨other, unowned⟩ := State.undecided_leave decided before
      refine ⟨r, rfl, other, unowned, ?_⟩
      rw [State.planAfterLeave_of_undecided decided before] at standing
      split at standing
      · exact .inr (Option.some.inj standing).symm
      next voter =>
        rw [before] at standing
        exact .inl ⟨(Option.some.inj standing).symm, by simpa using voter⟩

end

theorem State.planAfterLeave_nextNumber (s : State) (p : Port) : (s.planAfterLeave p).nextNumber = s.plan.nextNumber := by
  unfold State.planAfterLeave
  split
  · rfl
  · split <;> rfl
  · rfl

/-! ## A standing proposal -/

/-- R59, R63, R66, R71, R72, R74, R76: what holds of a standing proposal. -/
def Proposal.LawfulIn (s : State) (r : Proposal) : Prop :=
  s.inRun = true ∧ s.online r.proposer = true ∧ r.voters.get r.proposer = false ∧
    (∀ q, r.voters.get q = true → s.online q = true) ∧ (∀ q, r.yes.get q = true → r.voters.get q = true) ∧
    (r.state = .accepted ↔ ∀ q, r.voters.get q = true → r.yes.get q = true) ∧
    r.number ≠ 0 ∧ 1 ≤ r.remaining ∧ r.remaining ≤ 15 ∧ ∀ i, ¬ s.BadAt i

section

variable {s t u : State} {p : Port} {r : Proposal}

theorem State.planLawful_iff : s.PlanLawful ↔ s.plan.nextNumber ≠ 0 ∧ (1 ≤ s.mbc.deadline ∧ s.mbc.deadline ≤ 15) ∧
    ∀ r, s.plan.proposal = some r → r.LawfulIn s :=
  ⟨fun ⟨number, low, high, standing⟩ => ⟨number, ⟨low, high⟩, standing⟩,
    fun ⟨number, ⟨low, high⟩, standing⟩ => ⟨number, low, high, standing⟩⟩

/-- In SETUP no proposal stands (R59). -/
theorem State.PlanLawful.none_of_setup (h : s.PlanLawful) (setup : s.inRun = false) : s.plan.proposal = none := by
  obtain ⟨_, _, standing⟩ := State.planLawful_iff.1 h
  cases stands : s.plan.proposal with
  | none => rfl
  | some r => exact Bool.noConfusion (setup.symm.trans (standing r stands).1)

theorem planLawful_of_none (number : t.plan.nextNumber ≠ 0) (deadline : 1 ≤ t.mbc.deadline ∧ t.mbc.deadline ≤ 15)
    (none : t.plan.proposal = none) : t.PlanLawful :=
  State.planLawful_iff.2 ⟨number, deadline, fun r standing => by simp [none] at standing⟩

/-- Where no proposal stands, only the next number and the deadline matter. -/
theorem State.PlanLawful.of_none (h : s.PlanLawful) (none : s.plan.proposal = none) (plan : t.plan = s.plan)
    (deadline : t.mbc.deadline = s.mbc.deadline ∨ 1 ≤ t.mbc.deadline ∧ t.mbc.deadline ≤ 15) : t.PlanLawful := by
  obtain ⟨number, before, _⟩ := State.planLawful_iff.1 h
  refine planLawful_of_none (plan ▸ number) ?_ (plan ▸ none)
  rcases deadline with same | range
  · rwa [same]
  · exact range

/-- R55: an entry is still good while it and the shadow header stand and its lane stays OPEN with its owner. -/
theorem badAt_of_kept {i : EntryId} (entry : t.shadowEntry i = s.shadowEntry i)
    (header : t.cal.shadow.header = s.cal.shadow.header)
    (lane : ∀ n, (s.shadowEntry i).release = some n → (s.lane n.lane).state = .opened →
      (s.lane n.lane).owner = (s.shadowEntry i).owner →
      (t.lane n.lane).state = .opened ∧ (t.lane n.lane).owner = (s.lane n.lane).owner) (bad : t.BadAt i) : s.BadAt i := by
  obtain ⟨n, release, cause⟩ := bad
  rw [entry] at release cause
  rw [header] at cause
  refine ⟨n, release, ?_⟩
  by_contra good
  push Not at good
  obtain ⟨low, opened, owner⟩ := good
  obtain ⟨opened', owner'⟩ := lane n release opened owner
  rcases cause with high | closed | other
  · omega
  · exact closed opened'
  · exact other (owner'.trans owner)

/-- From `s` to `t`, the shadow stands and every OPEN lane stays OPEN with its owner. -/
def ShadowStands (s t : State) : Prop :=
  t.cal = s.cal ∧ ∀ l, (s.lane l).state = .opened → (t.lane l).state = .opened ∧ (t.lane l).owner = (s.lane l).owner

theorem ShadowStands.of_lanes (cal : t.cal = s.cal) (lanes : t.lanes = s.lanes) : ShadowStands s t :=
  ⟨cal, fun l opened => by
    unfold State.lane at *
    rw [lanes]
    exact ⟨opened, rfl⟩⟩

theorem ShadowStands.of_passed (cal : t.cal = s.cal) (passed : ∀ l, (s.lane l).Passed (t.lane l)) : ShadowStands s t :=
  ⟨cal, fun l opened => ⟨(passed l).opened_iff.2 opened, (passed l).owner⟩⟩

theorem ShadowStands.badAt (h : ShadowStands s t) (i : EntryId) (bad : t.BadAt i) : s.BadAt i := by
  obtain ⟨cal, lanes⟩ := h
  refine badAt_of_kept ?_ (by rw [cal]) (fun n _ opened _ => lanes n.lane opened) bad
  unfold State.shadowEntry
  rw [cal]

theorem Proposal.LawfulIn.of_kept (h : r.LawfulIn s) (run : t.inRun = s.inRun)
    (online : ∀ q, s.online q = true → t.online q = true) (bad : ∀ i, t.BadAt i → s.BadAt i) : r.LawfulIn t := by
  obtain ⟨inRun, proposer, apart, voters, yes, state, number, low, high, valid⟩ := h
  exact ⟨run.trans inRun, online _ proposer, apart, fun q voter => online q (voters q voter), yes, state, number, low, high,
    fun i found => valid i (bad i found)⟩

/-- What leaves the plan, the exchange state and the deadline alone keeps the law, if it keeps ONLINE ports and the shadow. -/
theorem State.PlanLawful.of_kept (h : s.PlanLawful) (plan : t.plan = s.plan) (deadline : t.mbc.deadline = s.mbc.deadline)
    (run : t.inRun = s.inRun) (online : ∀ q, s.online q = true → t.online q = true)
    (bad : ∀ i, t.BadAt i → s.BadAt i) : t.PlanLawful := by
  obtain ⟨number, range, standing⟩ := State.planLawful_iff.1 h
  refine State.planLawful_iff.2 ?_
  rw [plan, deadline]
  exact ⟨number, range, fun r stands => (standing r stands).of_kept run online bad⟩

theorem State.PlanLawful.of_shadow (h : s.PlanLawful) (plan : t.plan = s.plan) (mbc : t.mbc = s.mbc)
    (shadow : ShadowStands s t) : t.PlanLawful :=
  h.of_kept plan (by rw [mbc]) (State.inRun_congr (by rw [mbc]))
    (fun q member => (State.online_congr mbc q).trans member) shadow.badAt

/-! ## Decisions, votes and proposals -/

/-- R70: after a decision no proposal stands. -/
theorem State.PlanLawful.decidePlan (h : s.PlanLawful) (o : PlanOutcome) : (s.decidePlan r o).PlanLawful := by
  obtain ⟨number, deadline, _⟩ := State.planLawful_iff.1 h
  have mbc : (s.decidePlan r o).mbc = s.mbc := (s.decidePlan_changes r o).mbc (by simp)
  refine planLawful_of_none ?_ (mbc ▸ deadline) ?_ <;> rw [State.decidePlan_plan]
  exact number

theorem State.PlanLawful.setProposal (h : s.PlanLawful) (lawful : r.LawfulIn s) : (s.setProposal r).PlanLawful := by
  obtain ⟨number, deadline, _⟩ := State.planLawful_iff.1 h
  refine State.planLawful_iff.2 ⟨number, deadline, ?_⟩
  rintro _ ⟨⟩
  exact lawful

/-- R66: the vote of a voter who had none keeps the law. -/
theorem State.PlanLawful.castVote (h : s.PlanLawful) (stands : s.plan.proposal = some r) (voter : r.voters.get p = true)
    (unvoted : r.yes.get p = false) (ch : Choice) : (s.castVote r p ch).PlanLawful := by
  cases ch with
  | no => exact h.decidePlan _
  | yes =>
    obtain ⟨_, _, standing⟩ := State.planLawful_iff.1 h
    obtain ⟨run, proposer, apart, voters, yes, state, number, low, high, valid⟩ := standing r stands
    have opened : r.state ≠ .accepted := fun accepted =>
      Bool.noConfusion (unvoted.symm.trans (state.1 accepted p voter))
    rw [State.castVote_yes]
    refine h.setProposal ⟨run, proposer, apart, voters, fun q voted => ?_, ?_, number, low, high, valid⟩
    · by_cases own : q = p
      · exact own ▸ voter
      · exact yes q (by simpa [own] using voted)
    · have complete : (∀ q, r.voters.get q = true → (r.yes.set p true).get q = true) ↔
          (Port.all.all fun q => !r.voters.get q || q == p || r.yes.get q) = true := by
        simp only [List.all_eq_true, Port.mem_all, true_implies, PerPort.get_set]
        refine forall_congr' fun q => ?_
        by_cases own : q = p
        · simp [own]
        · cases r.voters.get q <;> simp [own]
      rw [complete]
      dsimp only
      split
      next all => simp [all]
      next missing => simp [missing, opened]

/-- R63: the proposal that PROPOSE opens. -/
theorem State.newProposal_lawful (h : s.PlanLawful) (run : s.inRun = true) (member : s.online p = true)
    (valid : s.firstBad = none) : (s.newProposal p).LawfulIn s := by
  obtain ⟨number, ⟨low, high⟩, _⟩ := State.planLawful_iff.1 h
  have voters : ∀ q, (s.newProposal p).voters.get q = (q != p && s.online q) := fun q => PerPort.get_ofFn _ q
  have yes : ∀ q, (s.newProposal p).yes.get q = false := fun q => PerPort.get_fill false q
  refine ⟨run, member, by rw [voters]; simp [State.newProposal], fun q voter => ?_, fun q voted => ?_, ?_, number, low, high,
    s.firstBad_eq_none.1 valid⟩
  · rw [voters, Bool.and_eq_true] at voter
    exact voter.2
  · exact Bool.noConfusion ((yes q).symm.trans voted)
  · rw [State.newProposal_state]
    simp only [voters, yes, Bool.false_eq_true, imp_false, ite_eq_left_iff, reduceCtorEq, not_not, List.filter_eq_nil_iff,
      Port.mem_all, true_implies]

theorem State.PlanLawful.openProposal (h : s.PlanLawful) (run : s.inRun = true) (member : s.online p = true)
    (valid : s.firstBad = none) : (s.openProposal p).PlanLawful := by
  have lawful := State.newProposal_lawful h run member valid
  obtain ⟨_, deadline, _⟩ := State.planLawful_iff.1 h
  have changes := s.openProposal_changes p
  have mbc : (s.openProposal p).mbc = s.mbc := changes.mbc (by simp)
  refine State.planLawful_iff.2 ?_
  rw [State.openProposal_plan, mbc]
  refine ⟨nextNumber_ne_zero _, deadline, ?_⟩
  rintro _ ⟨⟩
  exact lawful.of_kept (State.inRun_congr (by rw [mbc])) (fun q member => (State.online_congr mbc q).trans member)
    (ShadowStands.of_lanes (changes.cal (by simp)) (changes.lanes (by simp))).badAt

/-! ## Slot starts and the start of RUN -/

/-- R71: a cycle boundary decides the standing proposal or counts it down. -/
theorem State.PlanLawful.planBoundary (h : s.PlanLawful) : s.planBoundary.PlanLawful := by
  cases stands : s.plan.proposal with
  | none => rwa [s.planBoundary_of_none stands]
  | some r =>
    obtain ⟨_, _, standing⟩ := State.planLawful_iff.1 h
    by_cases accepted : r.state = .accepted
    · rw [State.planBoundary_of_accepted stands accepted]
      have decided := h.decidePlan (r := r) .applied
      refine decided.of_none ?_ rfl (.inl rfl)
      rw [State.decidePlan_plan]
    · have opened := ProposalState.eq_opened accepted
      by_cases last : r.remaining ≤ 1
      · rw [State.planBoundary_of_last stands opened last]
        exact h.decidePlan _
      · rw [State.planBoundary_of_more stands opened last]
        obtain ⟨run, proposer, apart, voters, yes, state, number, low, high, valid⟩ := standing r stands
        refine h.setProposal ⟨run, proposer, apart, voters, yes, state, number, ?_, ?_, valid⟩ <;> dsimp only <;> omega

theorem State.PlanLawful.releasePass (h : s.PlanLawful) : s.releasePass.PlanLawful := by
  have changes := s.releasePass_changes
  exact h.of_shadow (changes.plan (by simp [passParts])) (changes.mbc (by simp [passParts]))
    (.of_passed (changes.cal (by simp [passParts])) s.releasePass_passed)

theorem State.PlanLawful.slotStartAt (h : s.PlanLawful) (due : Time) : (s.slotStartAt due).PlanLawful := by
  rw [State.slotStartAt_eq]
  refine State.PlanLawful.releasePass ?_
  rcases lt_or_ge (s.timer.slot.toNat + 1) s.timer.header.slots with within | last
  · rw [State.slotBegun_within within]
    exact h
  · rw [State.slotBegun_boundary last]
    have turned : (s.turned due).PlanLawful := h
    exact turned.planBoundary

theorem State.startRun_plan (none : s.plan.proposal = none) : s.startRun.plan = s.plan := by
  have none' : (State.started (State.copyHeader
      (State.raiseAll { s with mbc := s.mbc.start } .exchangeRun s.readyPorts))).plan.proposal = Option.none := by
    change (State.raiseAll _ _ _).plan.proposal = _
    rw [State.raiseAll_plan]
    exact none
  unfold State.startRun State.startTimer
  refine ((State.releasePass_changes _).plan (by simp [passParts])).trans ?_
  refine (congrArg State.plan (State.planBoundary_of_none _ none')).trans ?_
  exact State.raiseAll_plan ..

theorem State.PlanLawful.startRun (h : s.PlanLawful) (setup : s.inRun = false) : s.startRun.PlanLawful := by
  have none := h.none_of_setup setup
  exact h.of_none none (State.startRun_plan none) (.inl (by rw [State.startRun_mbc]; rfl))

/-! ## Leaves -/

theorem Proposal.LawfulIn.withoutVoter (h : r.LawfulIn s) (p : Port) : (r.withoutVoter p).LawfulIn s := by
  obtain ⟨run, proposer, apart, voters, yes, state, number, low, high, valid⟩ := h
  have left : ∀ q, (r.withoutVoter p).voters.get q = (q != p && r.voters.get q) := fun q => by
    by_cases own : q = p <;> simp [Proposal.withoutVoter, own]
  have leftYes : ∀ q, (r.withoutVoter p).yes.get q = (q != p && r.yes.get q) := fun q => by
    by_cases own : q = p <;> simp [Proposal.withoutVoter, own]
  refine ⟨run, proposer, ?_, fun q voter => ?_, fun q voted => ?_, ?_, number, low, high, valid⟩
  · rw [left]
    change (r.proposer != p && r.voters.get r.proposer) = false
    rw [apart, Bool.and_false]
  · rw [left, Bool.and_eq_true] at voter
    exact voters q voter.2
  · rw [leftYes, Bool.and_eq_true] at voted
    rw [left, voted.1, yes q voted.2]
    rfl
  · have complete : (∀ q, (r.withoutVoter p).voters.get q = true → (r.withoutVoter p).yes.get q = true) ↔
        (Port.all.all fun q => q == p || !r.voters.get q || r.yes.get q) = true := by
      simp only [left, leftYes, List.all_eq_true, Port.mem_all, true_implies]
      refine forall_congr' fun q => ?_
      by_cases own : q = p
      · simp [own]
      · cases r.voters.get q <;> simp [own]
    rw [complete]
    unfold Proposal.withoutVoter
    dsimp only
    split
    next all => simp [all]
    next missing =>
      refine ⟨fun accepted => ?_, fun all => absurd all missing⟩
      refine complete.1 fun q voter => ?_
      rw [left, Bool.and_eq_true] at voter
      rw [leftYes, voter.1, state.1 accepted q voter.2]
      rfl

/-- Without shadow entries of `p`, its leave leaves the shadow as it is. -/
theorem State.leaveParted_shadowEntry (unowned : ∀ i, (s.shadowEntry i).owner ≠ some p) (i : EntryId) :
    (s.leaveParted p).shadowEntry i = s.shadowEntry i := by
  have stays : (s.shadowEntry i).without p = s.shadowEntry i := if_neg (unowned i)
  rw [State.shadowEntry, State.leaveParted_cal, Cal.shadow_setShadow, Tbl.at_map]
  exact stays

theorem State.leaveParted_badAt (unowned : ∀ i, (s.shadowEntry i).owner ≠ some p) (i : EntryId)
    (bad : (s.leaveParted p).BadAt i) : s.BadAt i := by
  refine badAt_of_kept (State.leaveParted_shadowEntry unowned i) ?_ (fun n _ opened owner => ?_) bad
  · rw [State.leaveParted_cal, Cal.shadow_setShadow]
  · have stays : ¬ (s.lane n.lane).leavesWith p = true := by
      intro leaves
      simp only [Lane.leavesWith, Bool.and_eq_true, beq_iff_eq] at leaves
      exact unowned i (owner.symm.trans leaves.2)
    rw [State.lane_leaveParted, if_neg stays]
    exact ⟨opened, rfl⟩

theorem State.PlanLawful.leave (h : s.PlanLawful) : (s.leave p).PlanLawful := by
  obtain ⟨number, deadline, standing⟩ := State.planLawful_iff.1 h
  have plan : (s.leave p).plan = s.planAfterLeave p := by
    rw [State.leave_eq, (State.endRunIfEmpty_changes _).plan (by simp), State.leaveParted_plan]
  refine State.planLawful_iff.2 ?_
  rw [plan, (s.leave_ports p).2.2]
  refine ⟨by rwa [State.planAfterLeave_nextNumber], deadline, fun r' stands => ?_⟩
  obtain ⟨r, before, other, unowned, after⟩ := State.planAfterLeave_standing stands
  have lawful := standing r before
  have left : r'.LawfulIn s ∧ r'.proposer = r.proposer ∧ r'.voters.get p = false := by
    rcases after with ⟨rfl, voter⟩ | rfl
    · exact ⟨lawful, rfl, voter⟩
    · exact ⟨lawful.withoutVoter p, rfl, by simp [Proposal.withoutVoter]⟩
  obtain ⟨⟨run, _, apart, voters, yes, state, number, low, high, valid⟩, proposer, voter⟩ := left
  have stays : s.online r.proposer = true := lawful.2.1
  have online : ∀ q, q ≠ p → s.online q = true → (s.leaveParted p).online q = true := fun q away member => by
    rw [State.leaveParted_online, member, Bool.and_true]
    exact bne_iff_ne.2 away
  rw [s.leave_of_others p ⟨r.proposer, other, stays⟩]
  refine ⟨?_, ?_, apart, fun q member => online q ?_ (voters q member), yes, state, number, low, high,
    fun i bad => valid i (State.leaveParted_badAt unowned i bad)⟩
  · exact (State.inRun_congr (by rw [s.leaveParted_mbc p])).trans run
  · rw [proposer]
    exact online _ other stays
  · rintro rfl
    exact Bool.noConfusion (voter.symm.trans member)

/-! ## Every command and happening -/

theorem planLawful_reads : ReadsOnly State.PlanLawful [.plan, .mbc, .cal, .lanes] := fun s t same h =>
  h.of_shadow (same .plan (by simp)) (same .mbc (by simp)) (.of_lanes (same .cal (by simp)) (same .lanes (by simp)))

theorem State.PlanLawful.setPort (h : s.PlanLawful) {st : PortState} (stays : s.online p = true → st = .online) :
    (s.setPort p st).PlanLawful := by
  refine h.of_kept (t := s.setPort p st) rfl rfl rfl (fun q member => ?_) fun i bad => bad
  rw [State.online_eq_true, State.portState_setPort]
  split
  next own => exact stays (own ▸ member)
  · exact (s.online_eq_true q).1 member

theorem State.PlanLawful.markReady (h : s.PlanLawful) : (s.markReady p).PlanLawful := by
  unfold State.markReady
  split
  next off => exact h.setPort fun member => by simp [State.online, off] at member
  · exact h

theorem State.PlanLawful.openLane (h : s.PlanLawful) {l : LaneId} (closed : (s.lane l).state = .closed)
    (settings : LaneSettings) : (s.modLane l (openedLane settings)).PlanLawful := by
  refine h.of_shadow rfl rfl ⟨rfl, fun k opened => ?_⟩
  rw [State.lane_modLane, if_neg (by rintro rfl; simp [closed] at opened)]
  exact ⟨opened, rfl⟩

theorem State.PlanLawful.closeLane (h : s.PlanLawful) {l : LaneId}
    (unnamed : s.plan.proposal = none ∨ s.cal.shadow.names l = false) (st : LaneState) :
    (s.modLane l (Lane.become st)).PlanLawful := by
  rcases unnamed with none | avoids
  · exact h.of_none none rfl (.inl rfl)
  · refine h.of_kept (t := s.modLane l (Lane.become st)) rfl rfl rfl (fun q member => member) fun i bad =>
      badAt_of_kept (s := s) (t := s.modLane l (Lane.become st)) rfl rfl (fun n release opened _ => ?_) bad
    have other : n.lane ≠ l := fun own =>
      Bool.noConfusion (avoids.symm.trans ((s.cal.shadow.names_iff l).2 ⟨i, n, release, own⟩))
    rw [State.lane_modLane, if_neg other]
    exact ⟨opened, rfl⟩

/-- Every command and happening keeps a standing proposal lawful. -/
theorem planLawful_exec {i : Instr} (touched : touches i [.plan, .mbc, .cal, .lanes] = true) (h : s.PlanLawful)
    (runs : exec i s = .next t) : t.PlanLawful := by
  have command : ∀ {p code b}, i.command? = some (p, code, b) → (actOf i s).1.PlanLawful → t.PlanLawful :=
    fun named act => planLawful_reads.exec_command (by simp) named runs h fun _ => act
  have written : ∀ u, SetupWritten s u → u.PlanLawful := fun u w =>
    h.of_none (h.none_of_setup w.setup) (w.changes.plan (by simp)) w.deadline
  have edited : ∀ i e, s.plan.proposal = none → (s.putEntry i e).PlanLawful := fun i e none =>
    h.of_none none rfl (.inl rfl)
  cases i with
  | resetNRelease straps =>
    cases runs
    exact planLawful_of_none (by simp [Plan.reset]) (by simp [Mbc.reset]) rfl
  | slotStart => exact slotStart_keeps runs h fun due _ _ _ => h.slotStartAt due
  | setQuota p b => exact command rfl (setupWrites_keep h written (.inl ⟨p, b, rfl⟩))
  | setRxq p b => exact command rfl (setupWrites_keep h written (.inr (.inl ⟨p, b, rfl⟩)))
  | setLease p b => exact command rfl (setupWrites_keep h written (.inr (.inr (.inl ⟨p, b, rfl⟩))))
  | setDeadline p b => exact command rfl (setupWrites_keep h written (.inr (.inr (.inr ⟨p, b, rfl⟩))))
  | setFrame p b =>
    refine command rfl (setFrame_keeps h (fun u setup h => ?_) fun hd _ none => ?_)
    · exact h.of_none (h.none_of_setup setup) (u.clearReady_changes.plan (by simp)) (.inl u.clearReady_sameSetup.2.1)
    · refine h.of_none ?_ rfl (.inl rfl)
      cases run : s.inRun with
      | true => exact none run
      | false => exact h.none_of_setup run
  | claim p b => exact command rfl (claim_keeps h fun _ none i _ => edited i _ none)
  | clearEntry p b => exact command rfl (clearEntry_keeps h fun _ none i _ => edited i _ none)
  | disown p b => exact command rfl (disown_keeps h fun _ none i _ => edited i _ none)
  | writeEntry p b => exact command rfl (writeEntry_keeps h fun _ _ none i _ _ _ _ _ _ _ => edited i _ none)
  | openLane p b => exact command rfl (openLane_keeps h fun _ _ l closed _ _ => h.openLane closed _)
  | closeLane p b => exact command rfl (closeLane_keeps h fun l _ unnamed => h.closeLane unnamed _)
  | purgeLane p b =>
    have changes := fun l => State.purge_changes s l
    exact command rfl (purgeLane_keeps h fun l _ => h.of_shadow ((changes l).plan (by simp)) ((changes l).mbc (by simp))
      (.of_passed ((changes l).cal (by simp)) (s.purgeClose_passed l)))
  | send p b =>
    refine command rfl (send_keeps h (fun _ => h) fun _ l _ d a _ _ _ _ _ _ _ _ _ _ => ?_)
    refine h.of_shadow rfl rfl ⟨rfl, fun k opened => ?_⟩
    rw [State.submitted, State.lane_modLane]
    split
    · exact ⟨opened, rfl⟩
    · exact ⟨opened, rfl⟩
  | propose p b => exact command rfl (propose_keeps h fun run member _ valid => h.openProposal run member valid)
  | vote p b => exact command rfl (vote_keeps h fun r stands voter unvoted ch => h.castVote stands voter unvoted ch)
  | withdraw p b => exact command rfl (withdraw_keeps h fun r _ => h.decidePlan _)
  | ready p b =>
    exact command rfl (ready_keeps h (fun _ => h.markReady) fun setup _ =>
      h.markReady.startRun ((s.markReady_inRun p).trans setup))
  | unready p b =>
    refine command rfl (unready_keeps h fun _ => h.setPort fun member => ?_)
    rw [State.online_eq_true] at member
    simp [member]
  | join p b =>
    refine command rfl (join_keeps h fun _ _ => ?_)
    exact (h.setPort (p := p) fun _ => rfl).of_shadow (State.raiseAll_plan ..) (State.raiseAll_mbc ..)
      (.of_lanes (State.raiseAll_cal ..) (State.raiseAll_lanes ..))
  | leave p b => exact command rfl (leave_keeps h fun _ _ => h.leave)
  | portReset p b =>
    refine command rfl (portReset_keeps h ?_)
    have member : (s.resetMembership p).PlanLawful := resetMembership_keeps h (fun _ => h.leave) fun marked =>
      h.setPort fun member => by simp [State.online, marked] at member
    exact member
  | _ => exact (Bool.false_ne_true touched).elim

end

/-- Settles O53: while a proposal stands the shadow is frozen, its lanes cannot close, and a leave that would break the
proposal decides it. -/
theorem stepKeepsPlanLawful : Obligations.StepKeepsPlanLawful := by
  unfold Obligations.StepKeepsPlanLawful
  intro s t h runs
  exact planLawful_reads.step (by simp) (by simp) (fun _ _ h => h) (fun i s t => planLawful_exec) h runs

end Sys2Proof.Machine
end

section
/-! PROOFS. The law of the lanes (02_lanes.md, R21, R22, R23, R38): a CLOSED lane is empty and a DRAINING one is not; the
others have settings in range and an ONLINE owner. -/

namespace Sys2Proof.Machine

open Sys2Proof

/-! ## One lane -/

/-- R21: settings that a lane which is not CLOSED may hold, its owner being ONLINE. -/
def State.Holds (s : State) (st : LaneSettings) : Prop := s.online st.owner = true ∧ s.Accepts st

/-- R21, R22, R23, R38: what holds of one lane. -/
def Lane.LawfulIn (s : State) (ln : Lane) : Prop :=
  (ln.state = .closed → ln.queue = []) ∧ (ln.state = .draining → ln.queue ≠ []) ∧
    (ln.state ≠ .closed → ∃ st, ln.settings = some st ∧ s.Holds st ∧ ln.queue.length ≤ st.depth)

section

variable {s t u : State} {p : Port} {a b : Lane} {l : LaneId}

theorem State.lanesLawful_iff : s.LanesLawful ↔ ∀ l, (s.lane l).LawfulIn s := by
  refine forall_congr' fun l => and_congr_right fun _ => and_congr_right fun _ => imp_congr_right fun _ =>
    exists_congr fun st => ?_
  unfold State.Holds State.Accepts
  simp only [and_assoc]

theorem Lane.lawfulIn_closed (s : State) (state : a.state = .closed) (queue : a.queue = []) : a.LawfulIn s :=
  ⟨fun _ => queue, fun draining => by simp [state] at draining, fun opened => absurd state opened⟩

/-- A lane that is not CLOSED keeps the law while its owner stays ONLINE and no port becomes DISABLED. -/
theorem Lane.LawfulIn.of_members (h : a.LawfulIn s) (enabled : EnabledStay s t)
    (owner : ∀ q, a.state ≠ .closed → a.owner = some q → s.online q = true → t.online q = true) : a.LawfulIn t := by
  obtain ⟨closed, draining, held⟩ := h
  refine ⟨closed, draining, fun opened => ?_⟩
  obtain ⟨st, settings, ⟨online, some, dests, low, high⟩, room⟩ := held opened
  refine ⟨st, settings, ⟨owner _ opened ?_ online, some, fun q named off => dests q named (enabled q off), low, high⟩, room⟩
  rw [Lane.owner, settings]
  rfl

theorem Lane.LawfulIn.passed (h : a.LawfulIn s) (passed : a.Passed b) : b.LawfulIn s := by
  obtain ⟨closed, draining, held⟩ := h
  rcases passed with rfl | ⟨settings, queue, ⟨state, more⟩ | ⟨_, shut, empty⟩⟩
  · exact ⟨closed, draining, held⟩
  · refine ⟨fun off => ?_, fun on => more (state.symm.trans on), fun opened => ?_⟩
    · have none := closed (state.symm.trans off)
      rw [none] at queue
      exact List.suffix_nil.1 queue
    · obtain ⟨st, same, holds, room⟩ := held (state ▸ opened)
      exact ⟨st, settings.trans same, holds, queue.length_le.trans room⟩
  · exact Lane.lawfulIn_closed s shut empty

/-- R33: CLOSE_LANE leaves an empty lane CLOSED and another DRAINING. -/
theorem Lane.LawfulIn.close (h : a.LawfulIn s) (opened : a.state = .opened) : (a.become a.closeState).LawfulIn s := by
  obtain ⟨_, _, held⟩ := h
  unfold Lane.closeState
  split
  next empty => exact Lane.lawfulIn_closed s rfl empty
  next more =>
    refine ⟨by rintro ⟨⟩, fun _ => more, fun _ => ?_⟩
    exact held (by simp [opened])

/-! ## Every lane -/

theorem State.LanesLawful.of_lanes (h : s.LanesLawful) (mbc : t.mbc = s.mbc)
    (lanes : ∀ l, (s.lane l).LawfulIn s → (t.lane l).LawfulIn s) : t.LanesLawful :=
  State.lanesLawful_iff.2 fun l => (lanes l (State.lanesLawful_iff.1 h l)).of_members (.of_mbc mbc)
    fun q _ _ member => (State.online_congr mbc q).trans member

theorem State.LanesLawful.of_members (h : s.LanesLawful) (lanes : t.lanes = s.lanes) (enabled : EnabledStay s t)
    (online : ∀ q, s.online q = true → t.online q = true) : t.LanesLawful := by
  refine State.lanesLawful_iff.2 fun l => ?_
  have same : t.lane l = s.lane l := by rw [State.lane, lanes]; rfl
  rw [same]
  exact (State.lanesLawful_iff.1 h l).of_members enabled fun q _ _ member => online q member

theorem State.LanesLawful.passed (h : s.LanesLawful) (mbc : t.mbc = s.mbc) (passed : ∀ l, (s.lane l).Passed (t.lane l)) :
    t.LanesLawful := h.of_lanes mbc fun l lawful => lawful.passed (passed l)

theorem State.LanesLawful.modLane (h : s.LanesLawful) {f : Lane → Lane}
    (keeps : (s.lane l).LawfulIn s → (f (s.lane l)).LawfulIn s) : (s.modLane l f).LanesLawful := by
  refine h.of_lanes (t := s.modLane l f) rfl fun k lawful => ?_
  rw [State.lane_modLane]
  split
  next own => subst own; exact keeps lawful
  · exact lawful

theorem State.LanesLawful.openLane (h : s.LanesLawful) (closed : (s.lane l).state = .closed) {st : LaneSettings}
    (holds : s.Holds st) : (s.modLane l (openedLane st)).LanesLawful := by
  refine h.modLane fun lawful => ⟨by rintro ⟨⟩, by rintro ⟨⟩, fun _ => ⟨st, rfl, holds, ?_⟩⟩
  have empty : (openedLane st (s.lane l)).queue = [] := lawful.1 closed
  rw [empty]
  exact Nat.zero_le _

theorem State.LanesLawful.append (h : s.LanesLawful) (opened : (s.lane l).state = .opened) {st : LaneSettings}
    (settings : (s.lane l).settings = some st) (room : (s.lane l).queue.length < st.depth) (d : DescId) :
    (s.modLane l (Lane.append d)).LanesLawful := by
  refine h.modLane fun lawful => ⟨fun closed => ?_, fun _ => by simp [Lane.append], fun _ => ?_⟩
  · exact LaneState.noConfusion (opened.symm.trans closed)
  · obtain ⟨st', same, holds, _⟩ := lawful.2.2 (by simp [opened])
    obtain rfl : st' = st := Option.some.inj (same.symm.trans settings)
    refine ⟨st', settings, holds, ?_⟩
    simpa [Lane.append] using room

/-- R38: a leave closes the lanes of the port that leaves, and those of the others keep an ONLINE owner. -/
theorem State.LanesLawful.leave (h : s.LanesLawful) : (s.leave p).LanesLawful := by
  refine State.lanesLawful_iff.2 fun l => ?_
  have lane : (s.leave p).lane l = (s.leaveParted p).lane l := by rw [State.lane, State.leave_lanes]; rfl
  rw [lane, State.lane_leaveParted]
  split
  · exact Lane.lawfulIn_closed _ rfl rfl
  next stays =>
    refine (State.lanesLawful_iff.1 h l).of_members (enabledStay_leave s p) fun q opened owner member => ?_
    have other : q ≠ p := by
      rintro rfl
      exact stays (by simp [Lane.leavesWith, opened, owner])
    rw [State.online_eq_true, State.leave_portState, if_neg other]
    exact (s.online_eq_true q).1 member

theorem State.LanesLawful.setPort (h : s.LanesLawful) {st : PortState} (stays : s.online p = true → st = .online)
    (enabled : st = .disabled → s.portState p = .disabled) : (s.setPort p st).LanesLawful := by
  refine h.of_members (t := s.setPort p st) rfl (fun q off => ?_) fun q member => ?_
  · rw [State.portState_setPort] at off
    split at off
    next own => exact own ▸ enabled off
    · exact off
  · rw [State.online_eq_true, State.portState_setPort]
    split
    next own => exact stays (own ▸ member)
    · exact (s.online_eq_true q).1 member

theorem State.LanesLawful.markReady (h : s.LanesLawful) : (s.markReady p).LanesLawful := by
  unfold State.markReady
  split
  next off => exact h.setPort (fun member => by simp [State.online, off] at member) (by rintro ⟨⟩)
  · exact h

theorem State.LanesLawful.releasePass (h : s.LanesLawful) : s.releasePass.LanesLawful :=
  h.passed (s.releasePass_changes.mbc (by simp [passParts])) s.releasePass_passed

theorem State.LanesLawful.startRun (h : s.LanesLawful) : s.startRun.LanesLawful := by
  have begun : State.LanesLawful { s with mbc := s.mbc.start } := by
    refine h.of_members (t := { s with mbc := s.mbc.start }) rfl (fun q off => ?_) fun q member => ?_
    · refine enabledStay_startRun s q ?_
      rw [State.portState, State.startRun_mbc]
      exact off
    · have stays : s.startRun.portState q = .online := by
        rw [State.startRun_portState, (s.online_eq_true q).1 member, if_neg (by simp)]
      rw [State.portState, State.startRun_mbc] at stays
      exact (State.online_eq_true _ q).2 stays
  have told := begun.of_lanes (t := State.raiseAll { s with mbc := s.mbc.start } .exchangeRun s.readyPorts)
    (State.raiseAll_mbc ..) fun l lawful => by rwa [State.lane, State.raiseAll_lanes]
  unfold State.startRun State.startTimer
  refine State.LanesLawful.releasePass ?_
  refine told.of_lanes ?_ fun l lawful => ?_
  · exact (State.planBoundary_changes _).mbc (by simp)
  · have lanes := (State.planBoundary_changes (State.started (State.copyHeader
      (State.raiseAll { s with mbc := s.mbc.start } .exchangeRun s.readyPorts)))).lanes (by simp)
    have same : ∀ u : State, u.lanes = (State.raiseAll { s with mbc := s.mbc.start } .exchangeRun s.readyPorts).lanes →
        (u.lane l).LawfulIn (State.raiseAll { s with mbc := s.mbc.start } .exchangeRun s.readyPorts) := fun u eq => by
      rwa [State.lane, eq]
    exact same _ lanes

theorem lanesLawful_reads : ReadsOnly State.LanesLawful [.lanes, .mbc] := fun s t same h =>
  h.of_members (same .lanes (by simp)) (.of_mbc (same .mbc (by simp)))
    fun q member => (State.online_congr (same .mbc (by simp)) q).trans member

theorem State.LanesLawful.slotStartAt (h : s.LanesLawful) (due : Time) : (s.slotStartAt due).LanesLawful := by
  rw [State.slotStartAt_eq]
  exact (lanesLawful_reads.keeps (s.slotBegun_changes due) (by simp) h).releasePass

/-! ## Every command and happening -/

/-- Every command and happening keeps the lanes lawful. -/
theorem lanesLawful_exec {i : Instr} (touched : touches i [.lanes, .mbc] = true) (h : s.LanesLawful)
    (runs : exec i s = .next t) : t.LanesLawful := by
  have command : ∀ {p code b}, i.command? = some (p, code, b) → (actOf i s).1.LanesLawful → t.LanesLawful :=
    fun named act => lanesLawful_reads.exec_command (by simp) named runs h fun _ => act
  have written : ∀ u, SetupWritten s u → u.LanesLawful := fun u w =>
    h.of_members (w.changes.lanes (by simp)) (fun q off => by
      rw [w.ports] at off
      split at off
      · cases off
      · exact off) fun q member => (w.online q).trans member
  cases i with
  | resetNRelease straps =>
    cases runs
    refine State.lanesLawful_iff.2 fun l => ?_
    have lane : (Tbl.fill 32 Lane.reset).at l = Lane.reset := Tbl.at_fill _ l
    exact Lane.lawfulIn_closed _ (congrArg Lane.state lane) (congrArg Lane.queue lane)
  | slotStart => exact slotStart_keeps runs h fun due _ _ _ => h.slotStartAt due
  | setQuota p b => exact command rfl (setupWrites_keep h written (.inl ⟨p, b, rfl⟩))
  | setRxq p b => exact command rfl (setupWrites_keep h written (.inr (.inl ⟨p, b, rfl⟩)))
  | setLease p b => exact command rfl (setupWrites_keep h written (.inr (.inr (.inl ⟨p, b, rfl⟩))))
  | setDeadline p b => exact command rfl (setupWrites_keep h written (.inr (.inr (.inr ⟨p, b, rfl⟩))))
  | setFrame p b =>
    refine command rfl (setFrame_keeps h (fun u _ h => ?_) fun hd _ _ => h)
    exact h.of_members (u.clearReady_changes.lanes (by simp)) (enabledStay_clearReady u)
      fun q member => (State.clearReady_online q).trans member
  | openLane p b =>
    exact command rfl (openLane_keeps h fun _ member l closed _ accepts => h.openLane closed ⟨member, accepts⟩)
  | closeLane p b => exact command rfl (closeLane_keeps h fun l opened _ => h.modLane fun lawful => lawful.close opened)
  | purgeLane p b =>
    exact command rfl (purgeLane_keeps h fun l _ =>
      h.passed ((State.purge_changes s l).mbc (by simp)) (s.purgeClose_passed l))
  | send p b =>
    refine command rfl (send_keeps h (fun _ => h) fun _ l st d a opened settings room _ _ lane _ _ _ _ => ?_)
    subst lane
    have granted : (s.grant d a).LanesLawful := h
    exact granted.append opened settings room d
  | ready p b => exact command rfl (ready_keeps h (fun _ => h.markReady) fun _ _ => h.markReady.startRun)
  | unready p b =>
    refine command rfl (unready_keeps h fun _ => h.setPort (fun member => ?_) fun off => ?_)
    · rw [State.online_eq_true] at member
      simp [member]
    · split at off
      · cases off
      · exact off
  | join p b =>
    refine command rfl (join_keeps h fun _ _ => ?_)
    exact (h.setPort (p := p) (st := .online) (fun _ => rfl) (by rintro ⟨⟩)).of_members (State.raiseAll_lanes ..)
      (.of_mbc (State.raiseAll_mbc ..)) fun q member => (State.online_congr (State.raiseAll_mbc ..) q).trans member
  | leave p b => exact command rfl (leave_keeps h fun _ _ => h.leave)
  | portReset p b =>
    refine command rfl (portReset_keeps h ?_)
    have member : (s.resetMembership p).LanesLawful := resetMembership_keeps h (fun _ => h.leave) fun marked =>
      h.setPort (fun member => by simp [State.online, marked] at member) (by rintro ⟨⟩)
    exact member
  | _ => exact (Bool.false_ne_true touched).elim

end

/-- Settles O55: the lanes change as their commands, passes and leaves say, and an ONLINE owner stays so but for its leave,
which closes its lanes. -/
theorem stepKeepsLanesLawful : Obligations.StepKeepsLanesLawful := by
  unfold Obligations.StepKeepsLanesLawful
  intro s t h runs
  exact lanesLawful_reads.step (by simp) (by simp) (fun _ _ h => h) (fun i s t => lanesLawful_exec) h runs

end Sys2Proof.Machine
end

section
/-! PROOFS. What becomes of messages in every operation that ends or settles some: a chain of moves, each of which rewrites
a descriptor that keeps its buffers, ends a message, or touches neither the store nor the reports. -/

namespace Sys2Proof.Machine

open Sys2Proof

/-- The descriptor keeps its source, its length and its buffers. -/
def Desc.SameMessage (m m' : Desc) : Prop := m'.source = m.source ∧ m'.length = m.length ∧ m'.fragments = m.fragments

/-- One move of the operations that end or settle messages. -/
inductive Move : State → State → Prop where
  | beside (s t : State) : ChangesOnly s t [.lanes, .rx, .att, .timer, .plan, .cal] → Move s t
  | rewrites (s : State) (d : DescId) (m m' : Desc) : s.desc d = some m → m.SameMessage m' → Move s (s.setDesc d (some m'))
  | ends (s : State) (d : DescId) (e : Ending) : Move s (s.endMessage d e)

/-- Any number of moves. -/
def Moves : State → State → Prop := Relation.ReflTransGen Move

section

variable {s t u : State} {p : Port} {l : LaneId} {d : DescId} {m : Desc}

/-! ## Messages and deliveries -/

theorem Moves.refl : Moves s s := Relation.ReflTransGen.refl

theorem Moves.trans (h : Moves s t) (h' : Moves t u) : Moves s u := Relation.ReflTransGen.trans h h'

theorem Move.moves (h : Move s t) : Moves s t := Relation.ReflTransGen.single h

theorem Moves.of_changes {parts : List Part} (changes : ChangesOnly s t parts)
    (sub : ∀ x ∈ parts, x ∈ [Part.lanes, .rx, .att, .timer, .plan, .cal]) : Moves s t :=
  (Move.beside s t (changes.mono sub)).moves

theorem moves_endMessage (s : State) (d : DescId) (e : Ending) : Moves s (s.endMessage d e) := (Move.ends s d e).moves

theorem moves_setDesc {m' : Desc} (h : s.desc d = some m) (same : m.SameMessage m') : Moves s (s.setDesc d (some m')) :=
  (Move.rewrites s d m m' h same).moves

theorem Moves.foldl {α : Type} {f : State → α → State} (h : ∀ s a, Moves s (f s a)) (as : List α) (s : State) :
    Moves s (as.foldl f s) := by
  induction as generalizing s with
  | nil => exact .refl
  | cons a as ih => exact (h s a).trans (ih _)

theorem moves_settle (s : State) (d : DescId) (p : Port) (v : Delivery) : Moves s (s.settle d p v) := by
  unfold State.settle
  split
  · exact .refl
  next m found =>
    have settled : Moves s (s.setDesc d (some { m.setDelivery p v with outstanding := m.outstanding - 1 })) :=
      moves_setDesc found ⟨rfl, rfl, rfl⟩
    dsimp only
    split
    · exact settled.trans (moves_endMessage _ d .released)
    · exact settled

theorem moves_setDelivery (s : State) (d : DescId) (p : Port) (v : Delivery) : Moves s (s.setDelivery d p v) := by
  unfold State.setDelivery
  split
  · exact .refl
  next m found => exact moves_setDesc found ⟨rfl, rfl, rfl⟩

theorem moves_modLane (s : State) (l : LaneId) (f : Lane → Lane) : Moves s (s.modLane l f) :=
  .of_changes (s.modLane_changes l f) (by simp)

theorem moves_modRx (s : State) (p : Port) (f : Rx → Rx) : Moves s (s.modRx p f) := .of_changes (s.modRx_changes p f) (by simp)

theorem moves_endLease (s : State) (p : Port) (n : SlotId) (c : EndCause) : Moves s (s.endLease p n c) := moves_modRx s p _

theorem moves_purgeQueue (l : LaneId) (ds : List DescId) (s : State) : Moves s (purgeQueue l ds s) := by
  induction ds generalizing s with
  | nil => exact .refl
  | cons d ds ih =>
    rw [purgeQueue_cons]
    exact ((moves_modLane s l _).trans (moves_endMessage _ d .purged)).trans (ih _)

theorem moves_purge (s : State) (l : LaneId) : Moves s (s.purge l) := moves_purgeQueue l _ s

theorem moves_purgeClose (s : State) (l : LaneId) : Moves s (s.purgeClose l) := (moves_purge s l).trans (moves_modLane _ l _)

theorem moves_leaveLanes (s : State) (p : Port) : Moves s (s.leaveLanes p) := by
  refine Moves.foldl (fun s l => ?_) _ s
  rw [leaveLane_eq]
  split
  · exact (moves_purge s l).trans (moves_modLane _ l _)
  · exact .refl

theorem moves_leaveQueue (p : Port) (ds : List DescId) (s : State) : Moves s (leaveQueue p ds s) := by
  induction ds generalizing s with
  | nil => exact .refl
  | cons d ds ih => exact ((moves_modRx s p _).trans (moves_settle _ d p .abandoned)).trans (ih _)

theorem moves_leaveReceive (s : State) (p : Port) : Moves s (s.leaveReceive p) := by
  have slots : Moves s ((List.finRange 4).foldl (leaveSlot p) s) := by
    refine Moves.foldl (fun s n => ?_) _ s
    unfold leaveSlot
    split
    · exact .refl
    · exact (moves_modRx s p _).trans (moves_settle _ _ p .abandoned)
  exact (slots.trans (moves_leaveQueue p _ _)).trans (moves_modRx _ p _)

theorem moves_enqueue (s : State) (p : Port) (d : DescId) (pos : Position) : Moves s (s.enqueue p d pos) :=
  .of_changes (s.enqueue_changes p d pos) (by simp)

theorem moves_endWithoutAck (s : State) (p : Port) (n : SlotId) (d : DescId) (c : EndCause) (pos : Position) :
    Moves s (s.endWithoutAck p n d c pos) := by
  have freed : Moves s (s.endLease p n c) := moves_modRx s p _
  unfold State.endWithoutAck
  dsimp only
  split
  · have told : Moves (s.endLease p n c) (((s.endLease p n c).modRx p fun r =>
        { r with deliveriesExpired := bump r.deliveriesExpired }).raise .deliveryExpired p) :=
      (moves_modRx _ p _).trans (.of_changes (State.raise_changes _ _ p) (by simp))
    exact (freed.trans told).trans (moves_settle _ d p .expired)
  · exact (freed.trans (moves_setDelivery _ d p .queued)).trans (moves_enqueue _ p d pos)

theorem moves_expire (s : State) (p : Port) (n : SlotId) (lease : Lease) : Moves s (s.expire p n lease) := by
  rw [State.expire_eq]
  exact Moves.trans (.of_changes (s.expiring_changes p lease) (by simp)) (moves_endWithoutAck _ p n _ _ _)

theorem moves_grantLease (s : State) (p : Port) (n : SlotId) (d : DescId) : Moves s (s.grantLease p n d) := by
  unfold State.grantLease State.modDesc
  split
  · exact moves_modRx s p _
  next m found => exact (moves_modRx s p _).trans (moves_setDesc found ⟨rfl, rfl, rfl⟩)

/-! ## Release passes and slot starts -/

theorem moves_commit (found : s.desc d = some m) (l : LaneId) (st : Stamp) : Moves s (s.commit l d m st) := by
  unfold State.commit
  dsimp only
  have popped := moves_modLane s l fun ln => (Lane.pop ln).count (LaneCounters.release (s.destsAt m .noRoom).length)
  have written : ∀ v n, Moves s ((s.modLane l fun ln => (Lane.pop ln).count
      (LaneCounters.release (s.destsAt m .noRoom).length)).setDesc d (some (m.released st v n))) := fun v n =>
    popped.trans (moves_setDesc (m := m) found ⟨rfl, rfl, rfl⟩)
  have placed : ∀ u : State, Moves u ((s.destsAt m .noRoom).foldl countMiss
      ((s.destsAt m .room).foldl (fun s q => s.enqueue q d .tail) u)) := fun u =>
    (Moves.foldl (fun s q => moves_enqueue s q d .tail) _ u).trans (Moves.foldl (fun s q => moves_modRx s q _) _ _)
  split
  · exact ((written _ _).trans (placed _)).trans (moves_endMessage _ d .released)
  · exact (written _ _).trans (placed _)

theorem moves_discardStale (s : State) (l : LaneId) (d : DescId) : Moves s (s.discardStale l d) :=
  ((moves_modLane s l _).trans (moves_endMessage _ d .stale)).trans (moves_modLane _ l _)

theorem moves_passLoop (l : LaneId) (tm : LaneSettings) (st : Stamp) (ds : List DescId) (left : Nat) (any : Bool)
    (s : State) : Moves s (passLoop l tm st ds left any s) := by
  induction ds generalizing s left any with
  | nil =>
    cases left with
    | zero => exact .refl
    | succ n =>
      unfold passLoop
      split
      · exact .refl
      · exact moves_modLane s l _
  | cons d ds ih =>
    cases left with
    | zero => exact .refl
    | succ n =>
      unfold passLoop
      split
      · exact (moves_modLane s l _).trans (ih _ _ _)
      next m found =>
        split
        · exact (moves_discardStale s l d).trans (ih _ _ _)
        · split
          · exact moves_modLane s l _
          · exact (moves_commit found l st).trans (ih _ _ _)

theorem moves_drained (s : State) (l : LaneId) (p : Port) : Moves s (s.drained l p) := by
  unfold State.drained
  split
  · exact (moves_modLane _ _ _).trans (.of_changes (State.raise_changes _ _ _) (by simp))
  · exact .refl

theorem moves_releasePass (s : State) : Moves s s.releasePass := by
  unfold State.releasePass State.passLane
  split
  · exact .refl
  · split
    · exact .refl
    · split
      · exact .refl
      · exact (moves_passLoop _ _ _ _ _ _ _).trans (moves_drained _ _ _)

theorem moves_slotStartAt (s : State) (due : Time) : Moves s (s.slotStartAt due) := by
  rw [State.slotStartAt_eq]
  exact Moves.trans (.of_changes (s.slotBegun_changes due) (by simp)) (moves_releasePass _)

theorem moves_startTimer (s : State) : Moves s s.startTimer := by
  unfold State.startTimer
  refine Moves.trans (.of_changes (parts := [.timer, .plan, .cal, .att]) ?_ (by simp)) (moves_releasePass _)
  refine ChangesOnly.comp ?_ ((State.scheduleNext_changes _ _).mono (by simp))
  exact ((timer_changes s _).mono (by simp)).comp ((State.boundary_changes _ _).mono (by simp))

/-- R157: the start of RUN is a change of the Membership Controller, and then moves. -/
theorem moves_startRun (s : State) : Moves { s with mbc := s.mbc.start } s.startRun := by
  unfold State.startRun
  refine Moves.trans (.of_changes (parts := [.att, .cal]) ?_ (by simp)) (moves_startTimer _)
  exact ((State.raiseAll_changes _ _ _).mono (by simp)).comp ((State.copyHeader_changes _).mono (by simp))

/-- R160: the leave of a port makes it OFFLINE; the rest of parts 1 to 5 is moves. -/
theorem moves_leaveReceive_of_leave (s : State) (p : Port) : Moves (s.setPort p .offline)
    ((((((s.setPort p .offline).raiseAll .memberChange (s.otherOnline p)).leavePlan p).leaveShadow p).leaveLanes
      p).leaveReceive p) := by
  have told : Moves (s.setPort p .offline)
      ((((s.setPort p .offline).raiseAll .memberChange (s.otherOnline p)).leavePlan p).leaveShadow p) := by
    refine .of_changes (parts := [.att, .plan, .cal]) ?_ (by simp)
    refine ChangesOnly.comp ?_ ((State.leaveShadow_changes _ p).mono (by simp))
    exact ((State.raiseAll_changes _ _ _).mono (by simp)).comp ((State.leavePlan_changes _ p).mono (by simp))
  exact (told.trans (moves_leaveLanes _ p)).trans (moves_leaveReceive _ p)

/-! ## What moves leave -/

theorem Move.mbc (h : Move s t) : t.mbc = s.mbc := by
  cases h with
  | beside _ changes => exact changes.mbc (by simp)
  | rewrites => rfl
  | ends => exact State.endMessage_mbc ..

theorem Moves.mbc (h : Moves s t) : t.mbc = s.mbc := by
  induction h with
  | refl => rfl
  | tail _ move ih => exact move.mbc.trans ih

/-- What every move keeps, moves keep. -/
theorem Moves.keeps {law : State → Prop} (h : Moves s t) (move : ∀ s t, Move s t → law s → law t) (before : law s) : law t := by
  induction h with
  | refl => exact before
  | tail _ step ih => exact move _ _ step ih

end

end Sys2Proof.Machine
end

section
/-! PROOFS. The laws of the Message Store (01_message_store.md, R7 to R11, R15): every buffer is in one place, the held
counts count, and the quota laws hold. -/

namespace Sys2Proof.Machine

open Sys2Proof

/-- A step takes a command or happening, or changes at most the queue, the free choices and the time base. -/
theorem step_cases {s t : State} (runs : step s = .next t) : (∃ i rest, exec i (s.withPending rest) = .next t) ∨
    ∃ q n now, t = { s with pending := q, choices := n, timer := { s.timer with timeBase := now } } := by
  unfold step at runs
  split at runs
  next i rest _ => exact .inl ⟨i, rest, runs⟩
  next =>
    cases runs
    exact .inr s.idle_eq

/-! ## Tables with one entry replaced -/

section

variable {n : Nat} {α β : Type}

theorem finRange_perm_cons_erase (d : Fin n) : (List.finRange n).Perm (d :: (List.finRange n).erase d) :=
  List.perm_cons_erase (List.mem_finRange d)

theorem flatMap_finRange_perm (f : Fin n → List β) (d : Fin n) :
    ((List.finRange n).flatMap f).Perm (f d ++ ((List.finRange n).erase d).flatMap f) := by
  rw [← List.flatMap_cons]
  exact (finRange_perm_cons_erase d).flatMap_right f

theorem sum_finRange (f : Fin n → Nat) (d : Fin n) :
    ((List.finRange n).map f).sum = f d + (((List.finRange n).erase d).map f).sum := by
  rw [← List.sum_cons, ← List.map_cons]
  exact ((finRange_perm_cons_erase d).map f).sum_eq

theorem ne_of_mem_erase {d i : Fin n} (h : i ∈ (List.finRange n).erase d) : i ≠ d := by
  rintro rfl
  exact ((List.nodup_finRange n).not_mem_erase) h

theorem flatMap_erase_congr {f g : Fin n → List β} {d : Fin n} (h : ∀ i, i ≠ d → f i = g i) :
    ((List.finRange n).erase d).flatMap f = ((List.finRange n).erase d).flatMap g :=
  List.flatMap_congr fun i mem => h i (ne_of_mem_erase mem)

theorem sum_erase_congr {f g : Fin n → Nat} {d : Fin n} (h : ∀ i, i ≠ d → f i = g i) :
    (((List.finRange n).erase d).map f).sum = (((List.finRange n).erase d).map g).sum :=
  congrArg List.sum (List.map_congr_left fun i mem => h i (ne_of_mem_erase mem))

end

section

variable {s t : State} {p : Port} {d : DescId} {m : Desc}

/-! ## Every buffer in one place -/

/-- The buffers in fragment lists. -/
def State.usedBuffers (s : State) : List BufId := (List.finRange 256).flatMap fun d => fragmentsOf (s.desc d)

/-- The buffers that the descriptors of source `p` hold. -/
def State.heldBy (s : State) (p : Port) : Nat := ((List.finRange 256).map fun d => heldFor p (s.desc d)).sum

theorem State.usedBuffers_of_free (free : ∀ d, s.desc d = none) : s.usedBuffers = [] :=
  List.flatMap_eq_nil_iff.2 fun d _ => by rw [free]; rfl

theorem State.heldBy_of_free (free : ∀ d, s.desc d = none) (p : Port) : s.heldBy p = 0 :=
  List.sum_eq_zero fun n mem => by
    obtain ⟨d, _, rfl⟩ := List.mem_map.1 mem
    rw [free]
    rfl

theorem State.storeLawful_iff : s.StoreLawful ↔ (s.mst.free ++ s.usedBuffers).Perm (List.finRange 512) ∧
    (∀ p, s.mst.held.get p = s.heldBy p) ∧
    (∀ d m, s.desc d = some m → 1 ≤ m.length ∧ m.length ≤ 256 ∧ m.fragments.length = buffersFor m.length) ∧
    Memory.wf s.mst.pool = true ∧ ∀ c ∈ s.mst.pool, c.1 < 32768 := Iff.rfl

/-- What the buffers and held counts are once one descriptor differs. -/
theorem State.usedBuffers_of_others (others : ∀ d', d' ≠ d → t.desc d' = s.desc d') : ∃ (rest : List BufId) (held : Port → Nat),
    s.usedBuffers.Perm (fragmentsOf (s.desc d) ++ rest) ∧ t.usedBuffers.Perm (fragmentsOf (t.desc d) ++ rest) ∧
    (∀ p, s.heldBy p = heldFor p (s.desc d) + held p) ∧ ∀ p, t.heldBy p = heldFor p (t.desc d) + held p := by
  have fragments : ∀ d', d' ≠ d → fragmentsOf (t.desc d') = fragmentsOf (s.desc d') := fun d' h => by rw [others d' h]
  have holds : ∀ p d', d' ≠ d → heldFor p (t.desc d') = heldFor p (s.desc d') := fun p d' h => by rw [others d' h]
  refine ⟨_, fun p => (((List.finRange 256).erase d).map fun d => heldFor p (s.desc d)).sum,
    flatMap_finRange_perm _ d, ?_, fun p => sum_finRange _ d, fun p => ?_⟩
  · rw [← flatMap_erase_congr fragments]
    exact flatMap_finRange_perm _ d
  · dsimp only
    rw [← sum_erase_congr (holds p)]
    exact sum_finRange _ d

/-- A law of the store stands where the buffers, the held counts and the messages do. -/
theorem State.StoreLawful.of_same (h : s.StoreLawful) (free : t.mst.free = s.mst.free) (held : t.mst.held = s.mst.held)
    (pool : t.mst.pool = s.mst.pool) (used : t.usedBuffers = s.usedBuffers) (by' : ∀ p, t.heldBy p = s.heldBy p)
    (messages : ∀ d m', t.desc d = some m' → ∃ m, s.desc d = some m ∧ m.SameMessage m') : t.StoreLawful := by
  obtain ⟨places, counts, lengths, canonical, low⟩ := State.storeLawful_iff.1 h
  refine State.storeLawful_iff.2 ?_
  rw [free, held, pool, used]
  refine ⟨places, fun p => (counts p).trans (by' p).symm, fun d m' found => ?_, canonical, low⟩
  obtain ⟨m, before, _, length, fragments⟩ := messages d m' found
  rw [length, fragments]
  exact lengths d m before

theorem storeLawful_reads : ReadsOnly State.StoreLawful [.mst] := fun s t same h => by
  have mst : t.mst = s.mst := same .mst (by simp)
  unfold State.StoreLawful State.desc
  rw [mst]
  exact h

theorem Desc.SameMessage.fragmentsOf {m' : Desc} (same : m.SameMessage m') :
    fragmentsOf (some m') = Machine.fragmentsOf (some m) := same.2.2

theorem heldFor_some (p : Port) (m : Desc) : heldFor p (some m) = if m.source = p then m.fragments.length else 0 := rfl

theorem Desc.SameMessage.heldFor {m' : Desc} (same : m.SameMessage m') (p : Port) :
    heldFor p (some m') = Machine.heldFor p (some m) := by
  rw [heldFor_some, heldFor_some, same.1, same.2.2]

theorem State.StoreLawful.rewrite (h : s.StoreLawful) (found : s.desc d = some m) {m' : Desc} (same : m.SameMessage m') :
    (s.setDesc d (some m')).StoreLawful := by
  have desc : ∀ d', (s.setDesc d (some m')).desc d' = if d' = d then some m' else s.desc d' :=
    fun d' => s.desc_setDesc d d' (some m')
  refine h.of_same rfl rfl rfl ?_ (fun p => ?_) fun d' m'' after => ?_
  · refine List.flatMap_congr fun d' _ => ?_
    rw [desc]
    split
    next own => rw [own, found, same.fragmentsOf]
    · rfl
  · refine congrArg List.sum (List.map_congr_left fun d' _ => ?_)
    rw [desc]
    split
    next own => rw [own, found, same.heldFor]
    · rfl
  · rw [desc] at after
    split at after
    next own =>
      cases after
      exact ⟨m, own ▸ found, same⟩
    · exact ⟨m'', after, rfl, rfl, rfl⟩

/-- R15: the end of a message gives its buffers back. -/
theorem State.StoreLawful.endMessage (h : s.StoreLawful) (d : DescId) (e : Ending) : (s.endMessage d e).StoreLawful := by
  cases found : s.desc d with
  | none => rwa [s.endMessage_free d e found]
  | some m =>
    obtain ⟨places, counts, lengths, canonical, low⟩ := State.storeLawful_iff.1 h
    have freed : (s.endMessage d e).desc d = none := by simp
    obtain ⟨rest, held, before, after, heldBefore, heldAfter⟩ :=
      State.usedBuffers_of_others (s := s) (t := s.endMessage d e) (d := d) fun d' other => by simp [other]
    rw [found] at before heldBefore
    rw [freed] at after heldAfter
    refine State.storeLawful_iff.2 ?_
    rw [s.endMessage_mst d e m found]
    refine ⟨?_, fun p => ?_, fun d' m' after => ?_, canonical, low⟩
    · refine List.Perm.trans ?_ places
      dsimp only
      rw [List.append_assoc]
      exact (List.Perm.append_left _ after).append_left _ |>.trans (before.symm.append_left _)
    · rw [heldAfter, PerPort.get_modify]
      split
      next own =>
        rw [own, counts, heldBefore]
        simp [heldFor]
      next other =>
        rw [counts, heldBefore]
        simp [heldFor, Ne.symm other]
    · rw [State.desc_endMessage] at after
      split at after
      · cases after
      · exact lengths d' m' after

theorem Move.storeLawful (move : Move s t) (h : s.StoreLawful) : t.StoreLawful := by
  cases move with
  | beside _ changes => exact storeLawful_reads.keeps changes (by simp) h
  | rewrites d m m' found same => exact h.rewrite found same
  | ends d e => exact h.endMessage d e

theorem Moves.storeLawful (moves : Moves s t) (h : s.StoreLawful) : t.StoreLawful :=
  moves.keeps (fun _ _ move => move.storeLawful) h

/-- R11: a grant takes its buffers from the free list. -/
theorem State.StoreLawful.grant (h : s.StoreLawful) (free : s.desc d = none) {a : Allocation} (some : 1 ≤ a.data.length)
    (few : a.data.length ≤ 256) (fits : a.buffers ≤ s.mst.free.length) : (s.grant d a).StoreLawful := by
  obtain ⟨places, counts, lengths, canonical, low⟩ := State.storeLawful_iff.1 h
  have desc : ∀ d', (s.grant d a).desc d' =
      if d' = d then .some (a.descriptor (s.mst.free.take a.buffers) s.timer.cycle) else s.desc d' :=
    fun d' => Tbl.at_put ..
  obtain ⟨rest, held, before, after, heldBefore, heldAfter⟩ :=
    State.usedBuffers_of_others (s := s) (t := s.grant d a) (d := d) fun d' other => by simp [desc, other]
  rw [free] at before heldBefore
  rw [desc, if_pos rfl] at after heldAfter
  have length : (s.mst.free.take a.buffers).length = a.buffers := List.length_take_of_le fits
  refine State.storeLawful_iff.2 ⟨?_, fun p => ?_, fun d' m' found => ?_, Memory.wf_store _ _ _ _ canonical,
    Memory.store_bound _ _ _ _ low⟩
  · refine List.Perm.trans ?_ places
    refine (after.append_left (s.mst.free.drop a.buffers)).trans ?_
    refine List.Perm.trans ?_ (before.symm.append_left s.mst.free)
    rw [← List.append_assoc]
    refine List.Perm.append_right _ (List.perm_append_comm.trans ?_)
    exact List.Perm.of_eq (List.take_append_drop _ _)
  · rw [heldAfter]
    change (s.mst.held.modify a.source (· + a.buffers)).get p = _
    rw [PerPort.get_modify]
    split
    next own =>
      rw [own, counts, heldBefore]
      simp [heldFor, Allocation.descriptor, length]
      omega
    next other =>
      rw [counts, heldBefore]
      simp [heldFor, Allocation.descriptor, Ne.symm other]
  · rw [desc] at found
    split at found
    · cases found
      exact ⟨some, few, length⟩
    · exact lengths d' m' found

/-- The law of the store does not read the refusal counters. -/
theorem State.StoreLawful.refusals (h : s.StoreLawful) {r : PerPort Refusals} (mst : t.mst = { s.mst with refusals := r }) :
    t.StoreLawful := by
  have desc : t.desc = s.desc := by
    funext d
    rw [State.desc, mst]
    rfl
  unfold State.StoreLawful
  rw [desc, mst]
  exact h

theorem State.StoreLawful.modRefusals (h : s.StoreLawful) (p : Port) (f : Refusals → Refusals) :
    (s.modRefusals p f).StoreLawful := h.refusals (s.modRefusals_mst p f)

theorem State.clearBlockCounters_mst (s : State) (p : Port) : (s.clearBlockCounters p).mst =
    { s.mst with refusals := s.mst.refusals.modify p fun _ => ⟨0, 0, 0⟩ } := rfl

theorem State.StoreLawful.resetMembership (h : s.StoreLawful) (leaves : (s.leave p).StoreLawful) :
    (s.resetPort p).StoreLawful := by
  have member : (s.resetMembership p).StoreLawful := by
    refine resetMembership_keeps h (fun _ => leaves) fun _ => ?_
    exact storeLawful_reads.keeps (s.setPort_changes p .offline) (by simp) h
  have mst : (s.resetPort p).mst = ((s.resetMembership p).clearBlockCounters p).mst := rfl
  exact member.refusals mst

theorem State.StoreLawful.leave (h : s.StoreLawful) : (s.leave p).StoreLawful := by
  have moved := (moves_leaveReceive_of_leave s p).storeLawful
    (storeLawful_reads.keeps (s.setPort_changes p .offline) (by simp) h)
  refine storeLawful_reads.keeps ?_ ?_ moved (changed := [.rpt, .mbc, .timer, .cal])
  · exact ChangesOnly.comp ((State.modRpt_changes _ p _).mono (by simp)) ((State.endRunIfEmpty_changes _).mono (by simp))
  · simp

theorem State.StoreLawful.modLane (h : s.StoreLawful) (l : LaneId) (f : Lane → Lane) : (s.modLane l f).StoreLawful :=
  storeLawful_reads.keeps (s.modLane_changes l f) (by simp) h

theorem storeLawful_of_reset {pool : Memory} (mst : t.mst = Mst.reset pool) (canonical : Memory.wf pool = true)
    (low : ∀ c ∈ pool, c.1 < 32768) : t.StoreLawful := by
  have desc : ∀ d, t.desc d = none := fun d => by rw [State.desc, mst]; exact Tbl.at_fill _ d
  have used := State.usedBuffers_of_free desc
  refine State.storeLawful_iff.2 ?_
  rw [used, mst]
  dsimp only [Mst.reset]
  refine ⟨List.Perm.of_eq (List.append_nil _), fun p => ?_, fun d m found => ?_, canonical, low⟩
  · rw [State.heldBy_of_free desc]
    exact PerPort.get_fill 0 p
  · rw [desc] at found
    cases found

theorem storeLawful_reset (pool : t.mst = Mst.reset s.mst.pool) (h : s.StoreLawful) : t.StoreLawful := by
  obtain ⟨_, _, _, canonical, low⟩ := State.storeLawful_iff.1 h
  exact storeLawful_of_reset pool canonical low

theorem State.markReady_changes (s : State) (p : Port) : ChangesOnly s (s.markReady p) [.mbc] :=
  .ite (s.setPort_changes p .ready) (.refl s _)

/-- What the Message Store's checks of a request that is granted say of buffers (R10). -/
theorem State.storeChecks_passing {k : Nat} (passing : firstFailing (s.storeChecks p k) = none) :
    s.mst.held.get p + k ≤ (s.params p).ceiling ∧
      k + (Port.sum fun q => (s.params q).reserve - (s.mst.held.get q + if q = p then k else 0)) ≤ s.mst.free.length :=
  ⟨of_decide_eq_true (passes_of_none passing (st := .quota) (by simp [State.storeChecks])),
    of_decide_eq_true (passes_of_none passing (st := .pool) (by simp [State.storeChecks]))⟩

/-- Every command and happening keeps each buffer in one place. -/
theorem storeLawful_exec {i : Instr} (touched : touches i [.mst] = true) (h : s.StoreLawful)
    (runs : exec i s = .next t) : t.StoreLawful := by
  have command : ∀ {p code b}, i.command? = some (p, code, b) → (actOf i s).1.StoreLawful → t.StoreLawful :=
    fun named act => storeLawful_reads.exec_command (by simp) named runs h fun _ => act
  cases i with
  | resetNRelease straps =>
    cases runs
    exact storeLawful_reset (s := s) rfl h
  | slotStart => exact slotStart_keeps runs h fun due _ _ _ => (moves_slotStartAt s due).storeLawful h
  | leaseExpiry p n => exact leaseExpiry_keeps runs h fun l _ => (moves_expire s p n l).storeLawful h
  | readCounters p b =>
    obtain ⟨q, named⟩ := exists_port b
    refine command rfl ?_
    rw [actOf, readCounters_eq s p named]
    refine checked_keeps h fun _ => ?_
    by_cases keep : byteAt b 1 = 0
    · simpa only [reply, if_pos keep] using h
    · simp only [reply, if_neg keep]
      exact h.refusals (s.clearBlockCounters_mst _)
  | send p b =>
    refine command rfl (send_keeps h (fun f => h.modRefusals p f) fun _ l st d a _ _ _ lowest source _ _ some few passing => ?_)
    have free := (s.lowestFree_eq_some d).1 lowest
    exact (h.grant free.1 some few (le_of_add_le_left (s.storeChecks_passing passing).2)).modLane _ _
  | fetch p b => exact command rfl (fetch_keeps h fun _ n d _ _ _ => (moves_grantLease s p n d).storeLawful h)
  | ack p b =>
    exact command rfl (ack_keeps h fun _ n l _ =>
      ((moves_endLease s p n .settled).trans (moves_settle _ l.desc p .delivered)).storeLawful h)
  | returnLease p b =>
    exact command rfl (returnLease_keeps h fun _ n l pos _ => (moves_endWithoutAck s p n l.desc _ pos).storeLawful h)
  | purgeLane p b =>
    exact command rfl (purgeLane_keeps h fun l _ => (moves_purgeClose s l).storeLawful h)
  | ready p b =>
    have marked : (s.markReady p).StoreLawful := storeLawful_reads.keeps (s.markReady_changes p) (by simp) h
    refine command rfl (ready_keeps h (fun _ => marked) fun _ _ => (moves_startRun _).storeLawful ?_)
    exact storeLawful_reads (s.markReady p) _ (by simp [Part.same]) marked
  | leave p b => exact command rfl (leave_keeps h fun _ _ => h.leave)
  | portReset p b =>
    exact command rfl (portReset_keeps h (h.resetMembership h.leave))
  | _ => exact (Bool.false_ne_true touched).elim

/-! ## The quota laws -/

/-- The quota laws stand where the held counts, the length of the free list and the parameters do. -/
theorem State.QuotaLawful.of_same (h : s.QuotaLawful) (held : t.mst.held = s.mst.held) (free : t.mst.free = s.mst.free)
    (params : ∀ q, t.params q = s.params q) : t.QuotaLawful := by
  unfold State.QuotaLawful
  simp only [held, free, params]
  exact h

theorem State.QuotaLawful.of_changes (h : s.QuotaLawful) {parts : List Part} (changes : ChangesOnly s t parts)
    (mst : Part.mst ∉ parts) (params : ∀ q, t.params q = s.params q) : t.QuotaLawful :=
  h.of_same (by rw [changes.mst mst]) (by rw [changes.mst mst]) params

theorem State.params_congr (h : t.mbc.params = s.mbc.params) (q : Port) : t.params q = s.params q := by
  unfold State.params
  rw [h]

/-- R10: buffers that a port gives back cover what its reserve gains. -/
theorem State.QuotaLawful.free (h : s.QuotaLawful) {q : Port} {k : Nat} (held : t.mst.held = s.mst.held.modify q (· - k))
    (free : t.mst.free.length = s.mst.free.length + k) (params : ∀ q, t.params q = s.params q) : t.QuotaLawful := by
  obtain ⟨ceilings, reserves⟩ := h
  unfold State.QuotaLawful Port.sum at *
  rw [held, free]
  simp only [params, PerPort.get_modify]
  refine ⟨fun p => ?_, ?_⟩
  · have ceiling := ceilings p
    split <;> omega
  · dsimp only at reserves
    cases q <;> simp only [reduceCtorEq, if_true, if_false] <;> omega

theorem Move.quotaLawful (move : Move s t) (h : s.QuotaLawful) : t.QuotaLawful := by
  have params : ∀ q, t.params q = s.params q := State.params_congr (by rw [move.mbc])
  cases move with
  | beside _ changes => exact h.of_changes changes (by simp) params
  | rewrites d m m' found same => exact h.of_same rfl rfl params
  | ends d e =>
    cases found : s.desc d with
    | none => rwa [s.endMessage_free d e found]
    | some m =>
      have mst := s.endMessage_mst d e m found
      exact h.free (congrArg Mst.held mst) ((congrArg (fun x => x.free.length) mst).trans List.length_append) params

theorem Moves.quotaLawful (moves : Moves s t) (h : s.QuotaLawful) : t.QuotaLawful :=
  moves.keeps (fun _ _ move => move.quotaLawful) h

/-- R10, R11: a grant that passed the checks keeps the quota laws. -/
theorem State.QuotaLawful.grant (h : s.QuotaLawful) {a : Allocation} {k : Nat} (buffers : a.buffers = k)
    (ceiling : s.mst.held.get a.source + k ≤ (s.params a.source).ceiling)
    (pool : k + (Port.sum fun q => (s.params q).reserve - (s.mst.held.get q + if q = a.source then k else 0)) ≤
      s.mst.free.length) (d : DescId) : (s.grant d a).QuotaLawful := by
  subst buffers
  have held : (s.grant d a).mst.held = s.mst.held.modify a.source (· + a.buffers) := rfl
  have free : (s.grant d a).mst.free.length = s.mst.free.length - a.buffers := List.length_drop
  have params : ∀ q, (s.grant d a).params q = s.params q := fun _ => rfl
  obtain ⟨ceilings, _⟩ := h
  unfold State.QuotaLawful
  rw [held, free]
  simp only [params, PerPort.get_modify]
  refine ⟨fun p => ?_, ?_⟩
  · split
    next own => rwa [own]
    · exact ceilings p
  · have grown : ∀ q, (if q = a.source then s.mst.held.get q + a.buffers else s.mst.held.get q) =
        s.mst.held.get q + if q = a.source then a.buffers else 0 := fun q => by split <;> rfl
    simp only [grown]
    omega

/-- In a SETUP without messages nothing is held and every buffer is free. -/
theorem State.StoreLawful.of_empty (h : s.StoreLawful) (empty : ∀ d, s.desc d = none) :
    s.mst.free.length = 512 ∧ ∀ p, s.mst.held.get p = 0 := by
  obtain ⟨places, counts, _⟩ := State.storeLawful_iff.1 h
  rw [State.usedBuffers_of_free empty, List.append_nil] at places
  refine ⟨places.length_eq.trans List.length_finRange, fun p => ?_⟩
  rw [counts, State.heldBy_of_free empty]

theorem quotaLawful_of_empty (free : s.mst.free.length = 512) (held : ∀ p, s.mst.held.get p = 0) (sum : s.reserveSum ≤ 512) :
    s.QuotaLawful := by
  unfold State.QuotaLawful
  simp only [held, free, Nat.sub_zero]
  exact ⟨fun _ => Nat.zero_le _, sum⟩

theorem State.QuotaLawful.written (h : s.QuotaLawful) (store : s.StoreLawful) (empty : s.SetupIsEmpty) (w : SetupWritten s t) :
    t.QuotaLawful := by
  obtain ⟨free, held⟩ := store.of_empty (empty w.setup)
  have mst := w.changes.mst (by simp)
  refine quotaLawful_of_empty (mst ▸ free) (mst ▸ held) ?_
  rcases w.reserves with sum | same
  · exact sum
  · obtain ⟨_, reserves⟩ := h
    simp only [held, free, Nat.sub_zero] at reserves
    unfold State.reserveSum
    simp only [same]
    exact reserves

theorem quotaLawful_reads : ReadsOnly State.QuotaLawful [.mst, .mbc] := fun s t same h => by
  have mst : t.mst = s.mst := same .mst (by simp)
  have mbc : t.mbc = s.mbc := same .mbc (by simp)
  exact h.of_same (by rw [mst]) (by rw [mst]) (State.params_congr (by rw [mbc]))

theorem State.QuotaLawful.setPort (h : s.QuotaLawful) (p : Port) (st : PortState) : (s.setPort p st).QuotaLawful :=
  h.of_changes (s.setPort_changes p st) (by simp) fun _ => rfl

theorem State.QuotaLawful.markReady (h : s.QuotaLawful) : (s.markReady p).QuotaLawful := by
  unfold State.markReady
  split
  · exact h.setPort p _
  · exact h

theorem State.QuotaLawful.leave (h : s.QuotaLawful) : (s.leave p).QuotaLawful := by
  have moves := moves_leaveReceive_of_leave s p
  have moved := moves.quotaLawful (h.setPort p .offline)
  refine moved.of_changes (parts := [.rpt, .mbc, .timer, .cal]) ?_ (by simp) (State.params_congr ?_)
  · exact ChangesOnly.comp ((State.modRpt_changes _ p _).mono (by simp)) ((State.endRunIfEmpty_changes _).mono (by simp))
  · have params := congrArg Mbc.params moves.mbc
    exact (s.leave_ports p).2.1.trans params.symm

theorem State.QuotaLawful.resetPort (h : s.QuotaLawful) : (s.resetPort p).QuotaLawful := by
  have member : (s.resetMembership p).QuotaLawful := resetMembership_keeps h (fun _ => h.leave) fun _ => h.setPort p _
  refine member.of_same ?_ ?_ (State.params_congr ?_)
  · rfl
  · rfl
  · rw [State.resetPort_mbc]

theorem Mst.reset_free_length (pool : Memory) : (Mst.reset pool).free.length = 512 := by
  dsimp only [Mst.reset]
  exact List.length_finRange

/-- Every command and happening keeps the quota laws, where SETUP holds no message. -/
theorem quotaLawful_exec {i : Instr} (touched : touches i [.mst, .mbc] = true) (store : s.StoreLawful)
    (empty : s.SetupIsEmpty) (h : s.QuotaLawful) (runs : exec i s = .next t) : t.QuotaLawful := by
  have command : ∀ {p code b}, i.command? = some (p, code, b) → (actOf i s).1.QuotaLawful → t.QuotaLawful :=
    fun named act => quotaLawful_reads.exec_command (by simp) named runs h fun _ => act
  have written : ∀ u, SetupWritten s u → u.QuotaLawful := fun u w => h.written store empty w
  cases i with
  | resetNRelease straps =>
    cases runs
    refine quotaLawful_of_empty (Mst.reset_free_length _) (fun p => PerPort.get_fill 0 p) ?_
    exact Nat.zero_le 512
  | slotStart => exact slotStart_keeps runs h fun due _ _ _ => (moves_slotStartAt s due).quotaLawful h
  | leaseExpiry p n => exact leaseExpiry_keeps runs h fun l _ => (moves_expire s p n l).quotaLawful h
  | readCounters p b =>
    obtain ⟨q, named⟩ := exists_port b
    refine command rfl ?_
    rw [actOf, readCounters_eq s p named]
    refine checked_keeps h fun _ => ?_
    by_cases keep : byteAt b 1 = 0
    · simpa only [reply, if_pos keep] using h
    · simp only [reply, if_neg keep]
      exact h.of_same (t := s.clearCounters p) rfl rfl fun _ => rfl
  | setQuota p b => exact command rfl (setupWrites_keep h written (.inl ⟨p, b, rfl⟩))
  | setRxq p b => exact command rfl (setupWrites_keep h written (.inr (.inl ⟨p, b, rfl⟩)))
  | setLease p b => exact command rfl (setupWrites_keep h written (.inr (.inr (.inl ⟨p, b, rfl⟩))))
  | setDeadline p b => exact command rfl (setupWrites_keep h written (.inr (.inr (.inr ⟨p, b, rfl⟩))))
  | setFrame p b =>
    refine command rfl (setFrame_keeps h (fun u _ h => ?_) fun hd _ _ => ?_)
    · exact h.of_changes u.clearReady_changes (by simp) u.params_clearReady
    · exact h.of_changes (s.setShadowHeader_changes hd) (by simp) fun _ => rfl
  | send p b =>
    refine command rfl (send_keeps h (fun f => ?_) fun _ l st d a _ _ _ _ source _ _ _ _ passing => ?_)
    · exact h.of_same (t := s.modRefusals p f) rfl rfl fun _ => rfl
    · subst source
      obtain ⟨ceiling, pool⟩ := s.storeChecks_passing passing
      exact (h.grant rfl ceiling pool d).of_changes (State.modLane_changes _ _ _) (by simp) fun _ => rfl
  | fetch p b => exact command rfl (fetch_keeps h fun _ n d _ _ _ => (moves_grantLease s p n d).quotaLawful h)
  | ack p b =>
    exact command rfl (ack_keeps h fun _ n l _ =>
      ((moves_endLease s p n .settled).trans (moves_settle _ l.desc p .delivered)).quotaLawful h)
  | returnLease p b =>
    exact command rfl (returnLease_keeps h fun _ n l pos _ => (moves_endWithoutAck s p n l.desc _ pos).quotaLawful h)
  | purgeLane p b => exact command rfl (purgeLane_keeps h fun l _ => (moves_purgeClose s l).quotaLawful h)
  | ready p b =>
    refine command rfl (ready_keeps h (fun _ => h.markReady) fun _ _ => (moves_startRun _).quotaLawful ?_)
    exact h.markReady.of_same (t := { s.markReady p with mbc := (s.markReady p).mbc.start }) rfl rfl fun _ => rfl
  | unready p b => exact command rfl (unready_keeps h fun _ => h.setPort p _)
  | join p b =>
    refine command rfl (join_keeps h fun _ _ => ?_)
    exact (h.setPort p .online).of_changes (State.raiseAll_changes _ _ _) (by simp)
      (State.params_congr (congrArg Mbc.params (State.raiseAll_mbc ..)))
  | leave p b => exact command rfl (leave_keeps h fun _ _ => h.leave)
  | portReset p b => exact command rfl (portReset_keeps h h.resetPort)
  | _ => exact (Bool.false_ne_true touched).elim

/-- A command or happening keeps the quota laws, whether or not it touches what they read. -/
theorem quotaLawful_any {i : Instr} (store : s.StoreLawful) (empty : s.SetupIsEmpty) (h : s.QuotaLawful)
    (runs : exec i s = .next t) : t.QuotaLawful := by
  cases touched : touches i [.mst, .mbc] with
  | true => exact quotaLawful_exec touched store empty h runs
  | false => exact quotaLawful_reads.exec_untouched touched runs h

end

/-- Settles O51: SEND takes buffers within the quota laws, every other command or happening moves messages or gives
buffers back, and setup values change only while nothing is held. -/
theorem stepKeepsStoreLawful : Obligations.StepKeepsStoreLawful := by
  unfold Obligations.StepKeepsStoreLawful
  refine ⟨fun s t h runs => ?_, fun s t store empty h runs => ?_⟩
  · refine storeLawful_reads.step (by simp) (by simp) (fun s now h => ?_) (fun i s t => storeLawful_exec) h runs
    exact storeLawful_reads s { s with timer := { s.timer with timeBase := now } } (by simp [Part.same]) h
  · rcases step_cases runs with ⟨i, rest, runs⟩ | ⟨q, n, now, rfl⟩
    · have queued : ∀ law : State → Prop, ReadsOnly law [.mst, .mbc] → law s → law (s.withPending rest) :=
        fun law reads => reads s (s.withPending rest) (by simp [Part.same])
      refine quotaLawful_any (storeLawful_reads s (s.withPending rest) (by simp [Part.same]) store) ?_
        (queued _ quotaLawful_reads h) runs
      exact empty
    · exact quotaLawful_reads s _ (by simp [Part.same]) h

end Sys2Proof.Machine
end

section
/-! PROOFS. What the release or the discard of a lane's head does (06_release_engine.md, R91 to R93, R95, R96): where its
destinations stand, what each receive queue gains, and what becomes of the message. -/

namespace Sys2Proof.Machine

open Sys2Proof

/-! ## Where destinations stand -/

section

variable (s : State) (q : Port) (m : Desc)

theorem State.beq_place_room : (s.place q == .room) = s.hasRoom q := by
  unfold State.place State.hasRoom
  cases s.online q <;> by_cases room : (s.rx.get q).occupancy < (s.params q).depth <;> simp [room]

theorem State.beq_place_noRoom : (s.place q == .noRoom) = s.isFull q := by
  unfold State.place State.isFull
  cases s.online q <;> by_cases room : (s.rx.get q).occupancy < (s.params q).depth <;> simp [room]

/-- Table 6-2: the delivery state of a destination. -/
theorem State.place_delivery : (s.place q).delivery =
    if s.hasRoom q then .queued else if s.isFull q then .missed else .abandoned := by
  simp only [← State.beq_place_room, ← State.beq_place_noRoom]
  cases s.place q <;> rfl

/-- The destinations at which the message is queued. -/
def State.queuedAt : List Port := Port.all.filter fun q => m.dest.get q && s.hasRoom q

/-- The destinations that the message misses. -/
def State.missedAt : List Port := Port.all.filter fun q => m.dest.get q && s.isFull q

theorem State.destsAt_room : s.destsAt m .room = s.queuedAt m := by
  unfold State.destsAt State.queuedAt Desc.dests PortSet.toList
  simp only [State.beq_place_room, List.filter_filter, Bool.and_comm]

theorem State.destsAt_noRoom : s.destsAt m .noRoom = s.missedAt m := by
  unfold State.destsAt State.missedAt Desc.dests PortSet.toList
  simp only [State.beq_place_noRoom, List.filter_filter, Bool.and_comm]

@[simp] theorem State.mem_queuedAt : q ∈ s.queuedAt m ↔ m.dest.get q = true ∧ s.hasRoom q = true := by
  simp [State.queuedAt]

@[simp] theorem State.mem_missedAt : q ∈ s.missedAt m ↔ m.dest.get q = true ∧ s.isFull q = true := by
  simp [State.missedAt]

theorem State.nodup_queuedAt : (s.queuedAt m).Nodup := Port.nodup_all.filter _

theorem State.nodup_missedAt : (s.missedAt m).Nodup := Port.nodup_all.filter _

/-- R94: under HOLD, an ONLINE destination without room holds the head. -/
theorem State.holds_iff (t : LaneSettings) : s.holds t m = true ↔
    t.policy = .hold ∧ ∃ q, m.dest.get q = true ∧ s.isFull q = true := by
  unfold State.holds
  rw [State.destsAt_noRoom, Bool.and_eq_true, beq_iff_eq, bne_iff_ne, List.ne_nil_iff_exists_cons]
  refine and_congr_right fun _ => ⟨?_, ?_⟩
  · rintro ⟨q, rest, named⟩
    exact ⟨q, (s.mem_missedAt q m).1 (named ▸ List.mem_cons_self)⟩
  · rintro ⟨q, full⟩
    exact List.exists_cons_of_ne_nil (List.ne_nil_of_mem ((s.mem_missedAt q m).2 full))

end

/-! ## Queueing at several ports -/

section

variable (d : DescId)

/-- A delivery queued at the tail of each of several ports. -/
def State.enqueueAll (s : State) (qs : List Port) : State := qs.foldl (fun s q => s.enqueue q d .tail) s

theorem State.enqueueAll_changes (s : State) (qs : List Port) : ChangesOnly s (s.enqueueAll d qs) [.rx, .att] :=
  ChangesOnly.foldl _ (fun s q => s.enqueue_changes q d .tail) qs s

theorem State.enqueue_tail_rx (s : State) (p q : Port) : (s.enqueue p d .tail).rx.get q =
    if q = p then { s.rx.get q with queue := (s.rx.get q).queue ++ [d] } else s.rx.get q := by
  rw [State.enqueue_eq, PerPort.get_modify]

theorem State.enqueueAll_rx (qs : List Port) (nodup : qs.Nodup) (s : State) (q : Port) : (s.enqueueAll d qs).rx.get q =
    { s.rx.get q with queue := if q ∈ qs then (s.rx.get q).queue ++ [d] else (s.rx.get q).queue } := by
  induction qs generalizing s with
  | nil => rfl
  | cons p qs ih =>
    obtain ⟨fresh, nodup⟩ := List.nodup_cons.1 nodup
    refine (ih nodup (s.enqueue p d .tail)).trans ?_
    rw [State.enqueue_tail_rx]
    by_cases own : q = p
    · subst own
      simp [fresh]
    · simp [own]

theorem State.enqueueAll_raised (qs : List Port) (nodup : qs.Nodup) (s : State) :
    RaisedTo s (s.enqueueAll d qs) .rxReady
      (qs.filter fun q => (s.rx.get q).queue.length + 1 == (s.params q).watermark) := by
  induction qs generalizing s with
  | nil => exact .refl s .rxReady
  | cons p qs ih =>
    obtain ⟨fresh, nodup⟩ := List.nodup_cons.1 nodup
    have params : (s.enqueue p d .tail).params = s.params := by
      unfold State.params
      rw [(s.enqueue_changes p d .tail).mbc (by simp)]
    intro q
    have after := ih nodup (s.enqueue p d .tail) q
    rw [State.enqueueAll] at after
    rw [State.enqueueAll, List.foldl_cons, after]
    simp only [List.mem_filter, List.mem_cons, State.enqueue_tail_rx, params]
    by_cases own : q = p
    · subst own
      rw [State.enqueue_eq]
      by_cases reaches : (s.rx.get q).queue.length + 1 = (s.params q).watermark <;> simp [fresh, reaches]
    · have att : (s.enqueue p d .tail).att.get q = s.att.get q := by
        rw [State.enqueue_eq]
        dsimp only
        split
        · rw [PerPort.get_modify, if_neg own]
        · rfl
      simp [own, att]

theorem foldl_countMiss_changes (qs : List Port) (s : State) : ChangesOnly s (qs.foldl countMiss s) [.rx] :=
  ChangesOnly.foldl _ (fun s q => countMiss_changes s q) qs s

theorem foldl_countMiss_rx (qs : List Port) (nodup : qs.Nodup) (s : State) (q : Port) : (qs.foldl countMiss s).rx.get q =
    { s.rx.get q with rxMissed := if q ∈ qs then counted (s.rx.get q).rxMissed 1 else (s.rx.get q).rxMissed } := by
  induction qs generalizing s with
  | nil => rfl
  | cons p qs ih =>
    obtain ⟨fresh, nodup⟩ := List.nodup_cons.1 nodup
    have one : (countMiss s p).rx.get q =
        if q = p then { s.rx.get q with rxMissed := counted (s.rx.get q).rxMissed 1 } else s.rx.get q := by
      rw [countMiss, State.modRx, PerPort.get_modify]
      split
      next own => rw [own, bump_eq]
      · rfl
    rw [List.foldl_cons, ih nodup, one]
    by_cases own : q = p
    · subst own
      simp [fresh]
    · simp [own]

end

/-! ## Releases -/

section

variable (s : State) (l : LaneId) (d : DescId) (m : Desc) (st : Stamp)

/-- R95, steps 2 to 4: the message as its release leaves it. -/
def State.releasedAs : Desc :=
  m.released st (PerPort.ofFn fun q => if m.dest.get q then (s.place q).delivery else m.delivery.get q) (s.queuedAt m).length

theorem State.releasedAs_eq : s.releasedAs m st = { m with
    state := .released, stamp := some st, outstanding := (s.queuedAt m).length
    delivery := PerPort.ofFn fun q => if m.dest.get q then
      (if s.hasRoom q then .queued else if s.isFull q then .missed else .abandoned) else m.delivery.get q } := by
  unfold State.releasedAs
  simp only [State.place_delivery]
  rfl

/-- The head taken from its lane's queue, with its message as released. -/
def State.unqueued : State :=
  (s.modLane l fun ln => (Lane.pop ln).count (LaneCounters.release (s.missedAt m).length)).setDesc d
    (some (s.releasedAs m st))

/-- R95: the release before the message ends for want of a delivery. -/
def State.placed : State := (s.missedAt m).foldl countMiss ((s.unqueued l d m st).enqueueAll d (s.queuedAt m))

theorem State.commit_eq : s.commit l d m st =
    if s.queuedAt m = [] then (s.placed l d m st).endMessage d .released else s.placed l d m st := by
  unfold State.commit State.placed State.unqueued State.releasedAs
  rw [State.destsAt_room, State.destsAt_noRoom]
  rfl

theorem State.placed_changes : ChangesOnly (s.unqueued l d m st) (s.placed l d m st) [.rx, .att] :=
  ((State.enqueueAll_changes d (s.unqueued l d m st) _).mono (by simp)).comp
    ((foldl_countMiss_changes _ _).mono (by simp))

theorem State.placed_mst : (s.placed l d m st).mst = { s.mst with desc := s.mst.desc.put d (some (s.releasedAs m st)) } :=
  (s.placed_changes l d m st).mst (by simp)

theorem State.placed_rx (q : Port) : (s.placed l d m st).rx.get q = { s.rx.get q with
    queue := if q ∈ s.queuedAt m then (s.rx.get q).queue ++ [d] else (s.rx.get q).queue
    rxMissed := if q ∈ s.missedAt m then counted (s.rx.get q).rxMissed 1 else (s.rx.get q).rxMissed } := by
  unfold State.placed
  rw [foldl_countMiss_rx _ (s.nodup_missedAt m), State.enqueueAll_rx d _ (s.nodup_queuedAt m)]
  rfl

theorem State.placed_raised : RaisedTo s (s.placed l d m st) .rxReady
    ((s.queuedAt m).filter fun q => (s.rx.get q).queue.length + 1 == (s.params q).watermark) := by
  have att : (s.placed l d m st).att = ((s.unqueued l d m st).enqueueAll d (s.queuedAt m)).att :=
    (foldl_countMiss_changes _ _).att (by simp)
  unfold RaisedTo
  rw [att]
  exact State.enqueueAll_raised d _ (s.nodup_queuedAt m) (s.unqueued l d m st)

/-- R92, R108, R109: what a release leaves in every port's receive state. -/
theorem State.commit_rx (q : Port) : (s.commit l d m st).rx.get q = { s.rx.get q with
    queue := if q ∈ s.queuedAt m then (s.rx.get q).queue ++ [d] else (s.rx.get q).queue
    rxMissed := if q ∈ s.missedAt m then counted (s.rx.get q).rxMissed 1 else (s.rx.get q).rxMissed } := by
  have same : (s.commit l d m st).rx = (s.placed l d m st).rx := by
    rw [State.commit_eq]
    split
    · exact State.endMessage_rx ..
    · rfl
  rw [same]
  exact s.placed_rx l d m st q

theorem State.commit_lane : LaneBecomes s (s.commit l d m st) l { s.lane l with
    queue := (s.lane l).queue.tail
    counters := { (s.lane l).counters with
      released := counted (s.lane l).counters.released 1
      missed := counted (s.lane l).counters.missed (s.missedAt m).length } } := by
  have same : (s.commit l d m st).lanes = (s.unqueued l d m st).lanes := by
    rw [State.commit_eq]
    split
    · rw [State.endMessage_lanes]
      exact (s.placed_changes l d m st).lanes (by simp)
    · exact (s.placed_changes l d m st).lanes (by simp)
  unfold LaneBecomes
  rw [State.lane, same]
  refine ⟨?_, s.modLane_onlyAt l fun ln => (Lane.pop ln).count (LaneCounters.release (s.missedAt m).length)⟩
  change (s.modLane l fun ln => (Lane.pop ln).count (LaneCounters.release (s.missedAt m).length)).lane l = _
  rw [State.lane_modLane, if_pos rfl, Lane.count, LaneCounters.release, bump_eq, bumpBy_eq]
  rfl

end

section

variable {s t : State} {l : LaneId} {d : DescId} {m : Desc} {st : Stamp} {rest : List DescId}

/-- What ends the message of a state with the same reports, attention states and members, and the same store but for the
descriptor itself, ends it of the state before. -/
theorem MessageEnded.of_before {u : State} {m' : Desc} {o : MsgOutcome} {x : Option Desc} (h : MessageEnded u t d m' o)
    (mst : u.mst = { s.mst with desc := s.mst.desc.put d x }) (rpt : u.rpt = s.rpt) (att : u.att = s.att)
    (mbc : u.mbc = s.mbc) : MessageEnded s t d m' o := by
  unfold MessageEnded RaisedTo State.online State.portState at h ⊢
  rw [mst, rpt, att, mbc] at h
  obtain ⟨freed, others, after⟩ := h
  exact ⟨freed, fun j other => (others j other).trans ((Tbl.at_put ..).trans (if_neg other)), after⟩

/-- Table 6-2: the delivery of a port after the release of a message that named no other than its destinations. -/
theorem State.releasedAs_delivery (fresh : ∀ q, m.dest.get q = false → m.delivery.get q = .notDest) (q : Port) :
    (s.releasedAs m st).delivery.get q = if m.dest.get q then (s.place q).delivery else .notDest := by
  refine (PerPort.get_ofFn _ q).trans ?_
  cases dest : m.dest.get q with
  | true => rfl
  | false => simp [fresh q dest]

/-- R128: a message none of whose destinations could be queued ends as FAILED. -/
theorem State.outcomeOf_releasedAs (fresh : ∀ q, m.dest.get q = false → m.delivery.get q = .notDest) :
    outcomeOf (s.releasedAs m st) .released = .failed := by
  rw [outcomeOf_eq]
  refine if_pos (List.filter_eq_nil_iff.2 fun q _ => ?_)
  rw [State.releasedAs_delivery fresh]
  cases m.dest.get q <;> cases s.place q <;> simp [Place.delivery]

/-- R92, R93, R95, R96, R107 to R109: the head of a lane is released. -/
theorem State.headReleased (queue : (s.lane l).queue = d :: rest)
    (fresh : ∀ q, m.dest.get q = false → m.delivery.get q = .notDest) :
    HeadReleased s (s.commit l d m st) l d rest m st := by
  have message := s.releasedAs_eq m st
  have lane := s.commit_lane l d m st
  rw [queue, List.tail_cons] at lane
  have kept : ChangesOnly s (s.placed l d m st) [.lanes, .mst, .rx, .att] :=
    ((((s.modLane_changes l _).mono (by simp)).comp ((State.setDesc_changes _ d _).mono (by simp)))).comp
      ((s.placed_changes l d m st).mono (by simp))
  refine ⟨s.commit_changes l d m st, lane, s.commit_rx l d m st, fun some => ?_, fun none => ?_⟩
  · replace some : s.queuedAt m ≠ [] := some
    rw [State.commit_eq, if_neg some]
    refine ⟨?_, kept.rpt (by simp), s.placed_raised l d m st⟩
    rw [s.placed_mst, message]
    rfl
  · replace none : s.queuedAt m = [] := none
    have stands : (s.placed l d m st).desc d = some (s.releasedAs m st) := by
      rw [State.desc, s.placed_mst]
      exact (Tbl.at_put ..).trans (if_pos rfl)
    have att : (s.placed l d m st).att = s.att := by
      refine ((foldl_countMiss_changes _ _).att (by simp)).trans ?_
      rw [none]
      rfl
    have ends := State.messageEnded stands .released
    rw [State.outcomeOf_releasedAs fresh] at ends
    rw [State.commit_eq, if_pos none]
    have before := ends.of_before (s.placed_mst l d m st) (kept.rpt (by simp)) att (kept.mbc (by simp))
    rw [message] at before
    exact before

/-! ## Discards -/

/-- R91: the head of a lane is discarded as stale. -/
theorem State.headDiscarded (queue : (s.lane l).queue = d :: rest) (found : s.desc d = some m) :
    HeadDiscarded s (s.discardStale l d) l d rest m := by
  have changes : ChangesOnly s (s.discardStale l d) [.lanes, .mst, .rpt, .att] :=
    (((s.modLane_changes l Lane.pop).mono (by simp)).comp ((State.endMessage_changes _ d .stale).mono (by simp))).comp
      ((State.modLane_changes _ l _).mono (by simp))
  have ended : MessageEnded (s.modLane l Lane.pop) ((s.modLane l Lane.pop).endMessage d .stale) d m .stale :=
    State.messageEnded (s := s.modLane l Lane.pop) found .stale
  have popped : ((s.modLane l Lane.pop).endMessage d .stale).lanes = (s.modLane l Lane.pop).lanes :=
    State.endMessage_lanes ..
  refine ⟨changes, ended, ?_, fun k other => ?_⟩
  · rw [State.discardStale, State.lane_modLane, if_pos rfl, State.lane, popped]
    change Lane.count _ ((s.modLane l Lane.pop).lane l) = _
    rw [State.lane_modLane, if_pos rfl, Lane.count, Lane.pop, queue, bump_eq]
    rfl
  · refine (State.modLane_onlyAt _ l _ k other).trans ?_
    rw [popped]
    exact State.modLane_onlyAt s l _ k other

end

end Sys2Proof.Machine
end

section
/-! PROOFS. The accounting of references (01_message_store.md, R3 to R6; 02_lanes.md, R23; 07_receive_queues_and_leases.md,
R104, R116): what each operation on a message does to the references to its descriptor and to its attempt counts. -/

namespace Sys2Proof.Machine

open Sys2Proof

/-! ## The law descriptor by descriptor -/

/-- R5, R116 at one message: its attempts are within the redelivery limits. -/
def State.WithinLimits (s : State) (m : Desc) : Prop :=
  ∀ p, m.attempts.get p ≤ (s.params p).redelivery + 1 ∧
    (m.delivery.get p = .queued → m.attempts.get p ≤ (s.params p).redelivery) ∧
    (m.delivery.get p = .leased → 1 ≤ m.attempts.get p)

/-- R3 to R6, R23, R104 at one descriptor. -/
def State.Accounts (s : State) (d : DescId) : Prop :=
  (s.desc d = none → (∀ l, s.laneRefs l d = 0) ∧ ∀ p, s.queueRefs p d = 0 ∧ s.slotRefs p d = 0) ∧
    ∀ m, s.desc d = some m → (m.state = .pending → s.PendingLawful d m) ∧ (m.state = .released → s.ReleasedLawful d m)

/-- The references to one descriptor are accounted for and, if `watch`, its attempts are within the limits. -/
def State.Tracks (watch : Prop) (s : State) (d : DescId) : Prop :=
  s.Accounts d ∧ (watch → ∀ m, s.desc d = some m → s.WithinLimits m)

/-- Every reference is accounted for and, if `watch`, every attempt count is within the limits. -/
def State.Tracked (watch : Prop) (s : State) : Prop := ∀ d, s.Tracks watch d

section

variable {watch : Prop} {s t u : State} {p : Port} {l : LaneId} {d : DescId} {m : Desc} {n : SlotId}

theorem State.referencesLawful_iff : s.ReferencesLawful ↔ s.Tracked False :=
  ⟨fun h d => ⟨h d, fun off => off.elim⟩, fun h d => (h d).1⟩

theorem State.tracked_true_iff : s.Tracked True ↔ s.ReferencesLawful ∧ s.AttemptsLawful :=
  ⟨fun h => ⟨fun d => (h d).1, fun d m p found => (h d).2 trivial m found p⟩,
    fun h d => ⟨h.1 d, fun _ m found p => h.2 d m p found⟩⟩

theorem State.Tracked.references (h : s.Tracked watch) : s.ReferencesLawful := fun d => (h d).1

/-! ## Descriptors with the same references -/

/-- The descriptor and every count of references to it are the same in both states. -/
structure SameRefs (s t : State) (d : DescId) : Prop where
  desc : t.desc d = s.desc d
  lane : ∀ l, t.laneRefs l d = s.laneRefs l d
  queue : ∀ p, t.queueRefs p d = s.queueRefs p d
  slot : ∀ p, t.slotRefs p d = s.slotRefs p d

/-- Every redelivery limit is the same in both states. -/
def SameLimits (s t : State) : Prop := ∀ p, (t.params p).redelivery = (s.params p).redelivery

theorem SameLimits.of_mbc (h : t.mbc = s.mbc) : SameLimits s t := fun p => by rw [State.params, h]; rfl

theorem State.Accounts.of_same (h : s.Accounts d) (same : SameRefs s t d) : t.Accounts d := by
  obtain ⟨desc, lane, queue, slot⟩ := same
  unfold State.Accounts State.PendingLawful State.ReleasedLawful at h ⊢
  simp only [desc, lane, queue, slot]
  exact h

theorem State.Tracks.of_same (h : s.Tracks watch d) (limits : SameLimits s t) (same : SameRefs s t d) : t.Tracks watch d := by
  refine ⟨h.1.of_same same, fun on m found p => ?_⟩
  rw [limits p]
  exact h.2 on m (same.desc.symm.trans found) p

theorem State.Tracked.of_same (h : s.Tracked watch) (limits : SameLimits s t) (same : ∀ d, SameRefs s t d) :
    t.Tracked watch := fun d => (h d).of_same limits (same d)

/-- Where one descriptor alone is concerned, it alone need be looked at. -/
theorem State.Tracked.of_others (h : s.Tracked watch) (limits : SameLimits s t) (others : ∀ d', d' ≠ d → SameRefs s t d')
    (here : t.Tracks watch d) : t.Tracked watch := fun d' => by
  by_cases own : d' = d
  · exact own ▸ here
  · exact (h d').of_same limits (others d' own)

theorem SameRefs.of_lists (desc : t.desc d = s.desc d) (lanes : ∀ l, (t.lane l).queue = (s.lane l).queue)
    (queues : ∀ p, (t.rx.get p).queue = (s.rx.get p).queue)
    (leases : ∀ p n, ((t.rx.get p).slots.at n).lease = ((s.rx.get p).slots.at n).lease) : SameRefs s t d where
  desc := desc
  lane l := congrArg (List.count d) (lanes l)
  queue p := congrArg (List.count d) (queues p)
  slot p := by
    refine List.countP_congr fun n _ => ?_
    unfold LeaseSlot.holds
    rw [leases p n]

theorem SameRefs.of_parts (mst : t.mst = s.mst) (lanes : t.lanes = s.lanes) (rx : t.rx = s.rx) : SameRefs s t d := by
  refine .of_lists ?_ (fun l => ?_) (fun p => ?_) fun p n => ?_
  · rw [State.desc, mst]; rfl
  · rw [State.lane, lanes]; rfl
  · rw [rx]
  · rw [rx]

/-- The law stands over a change of parts that hold no reference, no message and no limit. -/
theorem State.Tracked.of_changes (h : s.Tracked watch) {parts : List Part} (changes : ChangesOnly s t parts)
    (apart : ∀ x ∈ parts, x ∉ [Part.mbc, .mst, .lanes, .rx]) : t.Tracked watch := by
  have same : ∀ x, x ∈ [Part.mbc, .mst, .lanes, .rx] → x.same s t := fun x watched =>
    changes x fun named => apart x named watched
  exact h.of_same (.of_mbc (same .mbc (by simp))) fun d =>
    .of_parts (same .mst (by simp)) (same .lanes (by simp)) (same .rx (by simp))

/-! ## What a reference says of its descriptor -/

/-- A descriptor in a lane's queue is PENDING. -/
theorem State.Tracked.pending (h : s.Tracked watch) (queued : d ∈ (s.lane l).queue) :
    ∃ m, s.desc d = some m ∧ m.state = .pending ∧ s.PendingLawful d m := by
  obtain ⟨⟨free, some⟩, _⟩ := h d
  have once : 0 < s.laneRefs l d := List.count_pos_iff.2 queued
  cases found : s.desc d with
  | none => exact absurd ((free found).1 l) (by omega)
  | some m =>
    obtain ⟨pending, released⟩ := some m found
    cases state : m.state with
    | pending => exact ⟨m, rfl, state, pending state⟩
    | released =>
      obtain ⟨none, _⟩ := released state
      exact absurd (none l) (by omega)

/-- A descriptor with a reference in a port's receive state is RELEASED. -/
theorem State.Tracked.released (h : s.Tracked watch) (referred : 0 < s.queueRefs p d + s.slotRefs p d) :
    ∃ m, s.desc d = some m ∧ m.state = .released ∧ s.ReleasedLawful d m := by
  obtain ⟨⟨free, accounts⟩, _⟩ := h d
  cases found : s.desc d with
  | none =>
    obtain ⟨noQueue, noSlot⟩ := (free found).2 p
    omega
  | some m =>
    obtain ⟨pending, released⟩ := accounts m found
    cases state : m.state with
    | pending =>
      obtain ⟨_, none, _⟩ := pending state
      obtain ⟨noQueue, noSlot⟩ := none p
      omega
    | released => exact ⟨m, rfl, state, released state⟩

theorem LeaseSlot.holds_of_lease {sl : LeaseSlot} {lease : Lease} (held : sl.lease = some lease) (d : DescId) :
    sl.holds d = decide (d = lease.desc) := by
  rw [LeaseSlot.holds, held]
  exact Bool.beq_comm.trans (Bool.beq_eq_decide_eq _ _)

theorem LeaseSlot.holds_of_free {sl : LeaseSlot} (free : sl.lease = none) (d : DescId) : sl.holds d = false := by
  rw [LeaseSlot.holds, free]

/-- The message of a queued delivery. -/
theorem State.Tracked.queued (h : s.Tracked watch) (queued : d ∈ (s.rx.get p).queue) :
    ∃ m, s.desc d = some m ∧ m.state = .released ∧ s.ReleasedLawful d m ∧ m.delivery.get p = .queued := by
  have once : 0 < s.queueRefs p d := List.count_pos_iff.2 queued
  obtain ⟨m, found, state, released⟩ := h.released (p := p) (d := d) (by omega)
  obtain ⟨_, refs, _⟩ := id released
  refine ⟨m, found, state, released, ?_⟩
  by_contra other
  rw [(refs p).1, if_neg other] at once
  omega

/-- The message of a leased delivery. -/
theorem State.Tracked.leased (h : s.Tracked watch) {lease : Lease} (held : ((s.rx.get p).slots.at n).lease = some lease) :
    ∃ m, s.desc lease.desc = some m ∧ m.state = .released ∧ s.ReleasedLawful lease.desc m ∧
      m.delivery.get p = .leased := by
  have once : 0 < s.slotRefs p lease.desc :=
    List.countP_pos_iff.2 ⟨n, List.mem_finRange n, by rw [LeaseSlot.holds_of_lease held]; exact decide_eq_true rfl⟩
  obtain ⟨m, found, state, released⟩ := h.released (p := p) (d := lease.desc) (by omega)
  obtain ⟨_, refs, _⟩ := id released
  refine ⟨m, found, state, released, ?_⟩
  by_contra other
  rw [(refs p).2, if_neg other] at once
  omega

/-! ## Counts with one element changed -/

theorem countP_update {α : Type} {as : List α} (nodup : as.Nodup) {a : α} (mem : a ∈ as) {f g : α → Bool}
    (others : ∀ x, x ≠ a → g x = f x) :
    as.countP g + (if f a then 1 else 0) = as.countP f + (if g a then 1 else 0) := by
  classical
  have split : ∀ f : α → Bool, as.countP f = (as.erase a).countP f + (if f a then 1 else 0) := fun f => by
    rw [(List.perm_cons_erase mem).countP_eq f, List.countP_cons]
  have rest : (as.erase a).countP g = (as.erase a).countP f := List.countP_congr fun x inRest => by
    rw [others x (nodup.mem_erase_iff.1 inRest).1]
  rw [split f, split g, rest]
  omega

/-- The leases of a port on a descriptor, where one slot alone changes. -/
theorem slotRefs_update (others : OnlyAtIndex n (s.rx.get p).slots (t.rx.get p).slots) (d : DescId) :
    t.slotRefs p d + (if ((s.rx.get p).slots.at n).holds d then 1 else 0) =
      s.slotRefs p d + (if ((t.rx.get p).slots.at n).holds d then 1 else 0) :=
  countP_update (f := fun n => ((s.rx.get p).slots.at n).holds d) (g := fun n => ((t.rx.get p).slots.at n).holds d)
    (List.nodup_finRange 4) (List.mem_finRange n) fun k other => by rw [others k other]

/-- R6: the deliveries that count as outstanding, where one alone changes. -/
theorem countP_outstanding_set (v : PerPort Delivery) (p : Port) (x : Delivery) :
    Port.all.countP (fun q => ((v.set p x).get q).isOutstanding) + (if (v.get p).isOutstanding then 1 else 0) =
      Port.all.countP (fun q => (v.get q).isOutstanding) + (if x.isOutstanding then 1 else 0) := by
  have changed := countP_update Port.nodup_all (Port.mem_all p) (f := fun q => (v.get q).isOutstanding)
    (g := fun q => ((v.set p x).get q).isOutstanding) fun q other => by simp [other]
  simpa using changed

end

end Sys2Proof.Machine
end

section
/-! PROOFS. What each operation on a message keeps of the accounting of references: a submission, the end of a lane's head,
its release, a lease grant, a settled delivery and a delivery put back (01_message_store.md, R3 to R6; R104, R116). -/

namespace Sys2Proof.Machine

open Sys2Proof

section

variable {watch : Prop} {s t u : State} {p : Port} {l : LaneId} {d : DescId} {m : Desc} {n : SlotId} {rest : List DescId}

/-! ## Counts after each change of a queue -/

theorem laneRefs_of_becomes {ln : Lane} (h : LaneBecomes s t l ln) (k : LaneId) (d : DescId) :
    t.laneRefs k d = if k = l then ln.queue.count d else s.laneRefs k d := by
  obtain ⟨becomes, others⟩ := h
  split
  next own => rw [State.laneRefs, own, becomes]
  next other => exact congrArg (fun ln => List.count d ln.queue) (others k other)

theorem count_cons_other {d d' : DescId} (other : d' ≠ d) (ds : List DescId) : (d :: ds).count d' = ds.count d' :=
  List.count_cons_of_ne (Ne.symm other)

theorem count_append_other {d d' : DescId} (other : d' ≠ d) (ds : List DescId) : (ds ++ [d]).count d' = ds.count d' := by
  rw [List.count_append, count_cons_other other, List.count_nil, Nat.add_zero]

theorem count_append_self (d : DescId) (ds : List DescId) : (ds ++ [d]).count d = ds.count d + 1 := by
  rw [List.count_append, List.count_singleton_self]

/-- A free descriptor with no reference left is accounted for. -/
theorem State.Tracks.of_free (free : s.desc d = none) (lanes : ∀ l, s.laneRefs l d = 0)
    (ports : ∀ p, s.queueRefs p d = 0 ∧ s.slotRefs p d = 0) : s.Tracks watch d :=
  ⟨⟨fun _ => ⟨lanes, ports⟩, fun m found => (Option.some_ne_none m (found.symm.trans free)).elim⟩,
    fun _ m found => (Option.some_ne_none m (found.symm.trans free)).elim⟩

theorem State.Tracks.of_released (found : s.desc d = some m) (state : m.state = .released) (lawful : s.ReleasedLawful d m)
    (within : watch → s.WithinLimits m) : s.Tracks watch d := by
  refine ⟨⟨fun free => (Option.some_ne_none m (found.symm.trans free)).elim, fun m' found' => ?_⟩, fun on m' found' => ?_⟩
  all_goals
    obtain rfl := Option.some.inj (found.symm.trans found')
  · exact ⟨fun pending => DescState.noConfusion (state.symm.trans pending), fun _ => lawful⟩
  · exact within on

theorem State.Tracks.of_pending (found : s.desc d = some m) (state : m.state = .pending) (lawful : s.PendingLawful d m)
    (within : watch → s.WithinLimits m) : s.Tracks watch d := by
  refine ⟨⟨fun free => (Option.some_ne_none m (found.symm.trans free)).elim, fun m' found' => ?_⟩, fun on m' found' => ?_⟩
  all_goals
    obtain rfl := Option.some.inj (found.symm.trans found')
  · exact ⟨fun _ => lawful, fun released => DescState.noConfusion (state.symm.trans released)⟩
  · exact within on

/-! ## A lane's head -/

/-- R23: the head of a lane stands in no other place of any lane's queue. -/
theorem State.Tracked.headGone (h : s.Tracked watch) (queue : (s.lane l).queue = d :: rest)
    (counts : ∀ k d', t.laneRefs k d' = if k = l then rest.count d' else s.laneRefs k d') :
    (∀ k d', d' ≠ d → t.laneRefs k d' = s.laneRefs k d') ∧ ∀ k, t.laneRefs k d = 0 := by
  obtain ⟨m, found, state, lanes, _⟩ := h.pending (l := l) (d := d) (by rw [queue]; exact List.mem_cons_self)
  have head : ∀ d', s.laneRefs l d' = (d :: rest).count d' := fun d' => by rw [State.laneRefs, queue]
  refine ⟨fun k d' other => ?_, fun k => ?_⟩
  · rw [counts]
    split
    next own => rw [own, head, count_cons_other other]
    · rfl
  · have once := lanes k
    rw [counts]
    split
    next own =>
      rw [own, head, List.count_cons_self] at once
      split at once <;> omega
    next other =>
      have atHead := lanes l
      rw [head, List.count_cons_self] at atHead
      have own : m.lane = l := by
        by_contra elsewhere
        rw [if_neg (Ne.symm elsewhere)] at atHead
        omega
      rw [once, if_neg (own ▸ other)]

/-- R35, R91: the head of a lane leaves its queue and its message ends. -/
theorem State.Tracked.headEnds {ln : Lane} (h : s.Tracked watch) (queue : (s.lane l).queue = d :: rest)
    (mbc : t.mbc = s.mbc) (becomes : LaneBecomes s t l ln) (shorter : ln.queue = rest)
    (lists : ∀ q, (t.rx.get q).queue = (s.rx.get q).queue ∧ (t.rx.get q).slots = (s.rx.get q).slots)
    (freed : t.desc d = none) (others : OnlyAtIndex d s.mst.desc t.mst.desc) : t.Tracked watch := by
  obtain ⟨m, found, state, lanes, ports, _⟩ := h.pending (l := l) (d := d) (by rw [queue]; exact List.mem_cons_self)
  have queues : ∀ q d', t.queueRefs q d' = s.queueRefs q d' := fun q d' => by rw [State.queueRefs, (lists q).1]; rfl
  have slots : ∀ q d', t.slotRefs q d' = s.slotRefs q d' := fun q d' => by rw [State.slotRefs, (lists q).2]; rfl
  have counts := laneRefs_of_becomes becomes
  rw [shorter] at counts
  obtain ⟨kept, gone⟩ := h.headGone queue counts
  refine h.of_others (.of_mbc mbc) (fun d' other => ⟨others d' other, fun k => kept k d' other, (queues · d'), (slots · d')⟩)
    (.of_free freed gone fun q => ?_)
  rw [queues, slots]
  exact ports q

theorem State.Tracked.headDiscarded (h : s.Tracked watch) (queue : (s.lane l).queue = d :: rest)
    (discarded : HeadDiscarded s t l d rest m) : t.Tracked watch := by
  obtain ⟨changes, ⟨freed, others, _⟩, becomes⟩ := discarded
  exact h.headEnds queue (changes.mbc (by simp)) becomes rfl (fun q => by rw [changes.rx (by simp)]; exact ⟨rfl, rfl⟩) freed others

/-! ## A release -/

/-- R107: of the deliveries of a released message, those at ports with room are QUEUED, and no other is outstanding. -/
theorem State.releasedAs_outstanding {st : Stamp} (fresh : ∀ q, m.dest.get q = false → m.delivery.get q = .notDest)
    (q : Port) : ((s.releasedAs m st).delivery.get q = .queued ↔ q ∈ s.queuedAt m) ∧
      ((s.releasedAs m st).delivery.get q).isOutstanding = (m.dest.get q && s.hasRoom q) := by
  rw [State.releasedAs_delivery fresh, State.mem_queuedAt, ← State.beq_place_room]
  refine ⟨?_, ?_⟩
  · cases m.dest.get q <;> cases s.place q <;> simp [Place.delivery]
  · cases m.dest.get q <;> cases s.place q <;> rfl

/-- R6: the outstanding count of a released message counts its queued deliveries. -/
theorem State.length_queuedAt {st : Stamp} (fresh : ∀ q, m.dest.get q = false → m.delivery.get q = .notDest) :
    (s.queuedAt m).length = Port.all.countP fun q => ((s.releasedAs m st).delivery.get q).isOutstanding := by
  simp only [(State.releasedAs_outstanding fresh _).2]
  exact List.countP_eq_length_filter.symm

/-- R3, R4, R6: the head of a lane is released. -/
theorem State.Tracked.headReleased {st : Stamp} (h : s.Tracked watch) (queue : (s.lane l).queue = d :: rest)
    (found : s.desc d = some m) (released : HeadReleased s t l d rest m st) : t.Tracked watch := by
  obtain ⟨m', found', state, lanes, ports, stamp, outstanding, waiting⟩ :=
    h.pending (l := l) (d := d) (by rw [queue]; exact List.mem_cons_self)
  obtain rfl := Option.some.inj (found.symm.trans found')
  have fresh : ∀ q, m.dest.get q = false → m.delivery.get q = .notDest := fun q other => by simp [(waiting q).1, other]
  obtain ⟨changes, becomes, rx, placed, unplaced⟩ := released
  by_cases none : s.queuedAt m = []
  · refine h.headEnds queue (changes.mbc (by simp)) becomes rfl (fun q => ?_) (unplaced none).1 (unplaced none).2.1
    rw [rx]
    have away : q ∉ s.queuedAt m := none ▸ List.not_mem_nil
    exact ⟨if_neg away, rfl⟩
  · obtain ⟨mst, _⟩ := placed none
    have desc : ∀ d', t.desc d' = if d' = d then some (s.releasedAs m st) else s.desc d' := fun d' => by
      rw [State.desc, mst, State.releasedAs_eq]
      exact Tbl.at_put ..
    have queues : ∀ q d', t.queueRefs q d' =
        if q ∈ s.queuedAt m then ((s.rx.get q).queue ++ [d]).count d' else s.queueRefs q d' := fun q d' => by
      rw [State.queueRefs, rx]
      exact apply_ite (List.count d') _ _ _
    have slots : ∀ q d', t.slotRefs q d' = s.slotRefs q d' := fun q d' => by rw [State.slotRefs, rx]; rfl
    have counts := laneRefs_of_becomes becomes
    obtain ⟨kept, gone⟩ := h.headGone queue counts
    refine h.of_others (.of_mbc (changes.mbc (by simp)))
      (fun d' other => ⟨?_, fun k => kept k d' other, fun q => ?_, (slots · d')⟩)
      (.of_released ((desc d).trans (if_pos rfl)) rfl ⟨gone, fun q => ⟨?_, ?_⟩, rfl, ?_, ?_, fun q => ⟨?_, ?_⟩⟩
        fun on q => ⟨?_, fun _ => ?_, ?_⟩)
    · rw [desc, if_neg other]
    · rw [queues, count_append_other other]
      exact ite_self _
    · have absent : (s.rx.get q).queue.count d = 0 := (ports q).1
      simp only [queues, count_append_self, (State.releasedAs_outstanding fresh q).1, absent, (ports q).1]
    · rw [slots, (ports q).2, if_neg]
      rw [State.releasedAs_delivery fresh]
      cases m.dest.get q <;> cases s.place q <;> simp [Place.delivery]
    · exact List.length_pos_iff.2 none
    · exact State.length_queuedAt fresh
    · rw [State.releasedAs_delivery fresh]
      cases m.dest.get q <;> cases s.place q <;> simp [Place.delivery]
    · rw [State.releasedAs_delivery fresh, State.releasedAs, Desc.released]
      cases m.dest.get q <;> cases s.place q <;> simp [Place.delivery]
    · exact (waiting q).2.trans_le (Nat.zero_le _)
    · exact (waiting q).2.trans_le (Nat.zero_le _)
    · rw [State.releasedAs_delivery fresh]
      cases m.dest.get q <;> cases s.place q <;> simp [Place.delivery]

end

end Sys2Proof.Machine
end

section
/-! PROOFS. What each operation on a delivery keeps of the accounting of references: a submission, a lease grant, a settled
delivery and a delivery put back (01_message_store.md, R3 to R6; 07_receive_queues_and_leases.md, R104, R115, R116). -/

namespace Sys2Proof.Machine

open Sys2Proof

section

variable {watch : Prop} {s t u : State} {p : Port} {l : LaneId} {d : DescId} {m : Desc} {n : SlotId} {rest : List DescId}

/-! ## Submissions -/

/-- R2, R4 to R6, R23: a submitted message is PENDING, in its lane's queue once. -/
theorem State.Tracked.submitted (h : s.Tracked watch) (free : s.desc d = none) (a : Allocation) :
    (s.submitted d a).Tracked watch := by
  obtain ⟨lanes, ports⟩ := (h d).1.1 free
  let m := a.descriptor (s.mst.free.take a.buffers) s.timer.cycle
  have desc : ∀ d', (s.submitted d a).desc d' = if d' = d then some m else s.desc d' := fun d' => Tbl.at_put ..
  have appended : ∀ k, (s.submitted d a).lane k = if k = a.lane then Lane.append d (s.lane k) else s.lane k := fun k =>
    State.lane_modLane (s.grant d a) a.lane k (Lane.append d)
  have counts : ∀ k d', (s.submitted d a).laneRefs k d' =
      if k = a.lane then ((s.lane k).queue ++ [d]).count d' else s.laneRefs k d' := fun k d' => by
    rw [State.laneRefs, appended]
    split <;> rfl
  have empty : ∀ k, (s.lane k).queue.count d = 0 := lanes
  refine h.of_others (d := d) (fun _ => rfl) (fun d' other => ⟨?_, fun k => ?_, fun q => rfl, fun q => rfl⟩)
    (.of_pending ((desc d).trans (if_pos rfl)) rfl ⟨fun k => ?_, ports, rfl, rfl, fun q => ⟨?_, ?_⟩⟩ fun _ q => ⟨?_, ?_, ?_⟩)
  · rw [desc, if_neg other]
  · rw [counts, count_append_other other]
    exact ite_self _
  · rw [counts, count_append_self, empty, lanes]
    rfl
  · exact PerPort.get_ofFn _ q
  · exact PerPort.get_fill 0 q
  · exact (PerPort.get_fill 0 q).trans_le (Nat.zero_le _)
  · exact fun _ => (PerPort.get_fill 0 q).trans_le (Nat.zero_le _)
  · intro leased
    have waits : m.delivery.get q = if a.dest.get q then .waiting else .notDest := PerPort.get_ofFn _ q
    rw [waits] at leased
    split at leased <;> cases leased

/-! ## References at one port -/

/-- The references to every descriptor but `d`, and those to `d` outside p's receive state, are the same in both states. -/
structure RefsElsewhere (s t : State) (p : Port) (d : DescId) : Prop where
  lane : ∀ l d', t.laneRefs l d' = s.laneRefs l d'
  port : ∀ q d', q ≠ p ∨ d' ≠ d → t.queueRefs q d' = s.queueRefs q d' ∧ t.slotRefs q d' = s.slotRefs q d'

theorem RefsElsewhere.of_rx (lanes : t.lanes = s.lanes) (ports : OnlyAt p s.rx t.rx)
    (here : ∀ d', d' ≠ d → t.queueRefs p d' = s.queueRefs p d' ∧ t.slotRefs p d' = s.slotRefs p d') :
    RefsElsewhere s t p d where
  lane l d' := by rw [State.laneRefs, State.lane, lanes]; rfl
  port q d' other := by
    by_cases own : q = p
    · subst own
      exact here d' (other.resolve_left fun elsewhere => elsewhere rfl)
    · rw [State.queueRefs, State.slotRefs, ports q own]
      exact ⟨rfl, rfl⟩

theorem RefsElsewhere.sameRefs (h : RefsElsewhere s t p d) {d' : DescId} (other : d' ≠ d) (desc : t.desc d' = s.desc d') :
    SameRefs s t d' where
  desc := desc
  lane l := h.lane l d'
  queue q := (h.port q d' (.inr other)).1
  slot q := (h.port q d' (.inr other)).2

/-- A delivery state that ends a delivery. -/
def Delivery.Final (v : Delivery) : Prop := v = .delivered ∨ v = .expired ∨ v = .abandoned

theorem Delivery.Final.apart {v : Delivery} (h : v.Final) :
    v.isOutstanding = false ∧ v ≠ .waiting ∧ v ≠ .notDest ∧ v ≠ .queued ∧ v ≠ .leased := by
  rcases h with rfl | rfl | rfl <;> decide

/-- What stands of a message when one of its deliveries, which is outstanding, takes another state. -/
theorem State.ReleasedLawful.delivery_set (lawful : s.ReleasedLawful d m) (before : (m.delivery.get p).isOutstanding = true)
    {v : Delivery} (started : v ≠ .waiting ∧ v ≠ .notDest) (q : Port) : (m.delivery.set p v).get q ≠ .waiting ∧
      ((m.delivery.set p v).get q = .notDest ↔ m.dest.get q = false) := by
  obtain ⟨_, _, _, _, _, deliveries⟩ := lawful
  obtain ⟨waits, named⟩ := deliveries q
  by_cases own : q = p
  · subst own
    have dest : m.dest.get q ≠ false := fun off => by
      rw [named.2 off] at before
      cases before
    simp [started, dest]
  · simp [own, waits, named]

/-- R6, R119: a delivery whose reference is gone is settled. -/
theorem State.Tracked.settled {v : Delivery} (h : s.Tracked watch) (found : s.desc d = some m) (state : m.state = .released)
    (lawful : s.ReleasedLawful d m) (before : (m.delivery.get p).isOutstanding = true) (final : v.Final)
    (mbc : t.mbc = s.mbc) (elsewhere : RefsElsewhere s t p d) (gone : t.queueRefs p d = 0 ∧ t.slotRefs p d = 0)
    (store : u.mst = s.mst) (settled : Settled u t p d m v) : t.Tracked watch := by
  obtain ⟨ends, stands⟩ := settled
  unfold MessageEnded at ends
  rw [store] at ends stands
  obtain ⟨inactive, waits, named, queued, leased⟩ := final.apart
  obtain ⟨lanes, ports, stamp, _, outstanding, deliveries⟩ := id lawful
  have count := countP_outstanding_set m.delivery p v
  rw [before, inactive, if_pos rfl, if_neg Bool.false_ne_true, ← outstanding] at count
  rcases Nat.lt_or_ge 1 m.outstanding with more | last
  · obtain ⟨mst, _⟩ := stands more
    have desc : ∀ d', t.desc d' = if d' = d then
        some { m with delivery := m.delivery.set p v, outstanding := m.outstanding - 1 } else s.desc d' := fun d' => by
      rw [State.desc, mst]
      exact Tbl.at_put ..
    refine h.of_others (.of_mbc mbc) (fun d' other => elsewhere.sameRefs other ((desc d').trans (if_neg other)))
      (.of_released ((desc d).trans (if_pos rfl)) state
        ⟨fun k => (elsewhere.lane k d).trans (lanes k), fun q => ?_, stamp, by dsimp only; omega, by dsimp only; omega,
          lawful.delivery_set before ⟨waits, named⟩⟩ fun on q => ?_)
    · by_cases own : q = p
      · subst own
        simp [gone, queued, leased]
      · obtain ⟨queue, slot⟩ := elsewhere.port q d (.inl own)
        simp [own, queue, slot, ports q]
    · obtain ⟨limit, unqueued, unleased⟩ := (h d).2 on m found q
      rw [SameLimits.of_mbc mbc q]
      by_cases own : q = p
      · subst own
        simp [limit, queued, leased]
      · simp only [PerPort.get_set, if_neg own]
        exact ⟨limit, unqueued, unleased⟩
  · obtain ⟨freed, others, _⟩ := ends last
    refine h.of_others (.of_mbc mbc) (fun d' other => elsewhere.sameRefs other (others d' other))
      (.of_free freed (fun k => (elsewhere.lane k d).trans (lanes k)) fun q => ?_)
    by_cases own : q = p
    · exact own ▸ gone
    · have none : (Port.all.countP fun q => ((m.delivery.set p v).get q).isOutstanding) = 0 := by omega
      have inactive := List.countP_eq_zero.1 none q (Port.mem_all q)
      rw [PerPort.get_set, if_neg own] at inactive
      obtain ⟨queue, slot⟩ := elsewhere.port q d (.inl own)
      rw [queue, slot, (ports q).1, (ports q).2]
      cases delivery : m.delivery.get q <;> simp [delivery, Delivery.isOutstanding] at inactive ⊢

/-- R6, R107: a delivery goes from queued to leased or back, and its reference with it. -/
theorem State.Tracked.moved {v : Delivery} {attempts : PerPort Nat} (h : s.Tracked watch) (state : m.state = .released)
    (lawful : s.ReleasedLawful d m) (before : (m.delivery.get p).isOutstanding = true) (after : v.isOutstanding = true)
    (mbc : t.mbc = s.mbc) (elsewhere : RefsElsewhere s t p d)
    (here : t.queueRefs p d = (if v = .queued then 1 else 0) ∧ t.slotRefs p d = if v = .leased then 1 else 0)
    (mst : t.mst = { s.mst with
      desc := s.mst.desc.put d (some { m with delivery := m.delivery.set p v, attempts := attempts }) })
    (within : watch → t.WithinLimits { m with delivery := m.delivery.set p v, attempts := attempts }) :
    t.Tracked watch := by
  obtain ⟨lanes, ports, stamp, active, outstanding, deliveries⟩ := id lawful
  have count := countP_outstanding_set m.delivery p v
  rw [before, after, if_pos rfl, ← outstanding] at count
  have started : v ≠ .waiting ∧ v ≠ .notDest := by
    refine ⟨?_, ?_⟩ <;> rintro rfl <;> cases after
  have desc : ∀ d', t.desc d' = if d' = d then
      some { m with delivery := m.delivery.set p v, attempts := attempts } else s.desc d' := fun d' => by
    rw [State.desc, mst]
    exact Tbl.at_put ..
  refine h.of_others (.of_mbc mbc) (fun d' other => elsewhere.sameRefs other ((desc d').trans (if_neg other)))
    (.of_released ((desc d).trans (if_pos rfl)) state
      ⟨fun k => (elsewhere.lane k d).trans (lanes k), fun q => ?_, stamp, active, by dsimp only; omega,
        lawful.delivery_set before started⟩ within)
  by_cases own : q = p
  · subst own
    simpa using here
  · obtain ⟨queue, slot⟩ := elsewhere.port q d (.inl own)
    simp [own, queue, slot, ports q]

end

end Sys2Proof.Machine
end

section
/-! PROOFS. Lease grants, lease ends, leaves and purges keep every reference accounted for and every attempt count within
its limit (01_message_store.md, R3 to R6; 02_lanes.md, R35, R38; 07_receive_queues_and_leases.md, R111 to R122). -/

namespace Sys2Proof.Machine

open Sys2Proof

section

variable {watch : Prop} {s t u : State} {p : Port} {l : LaneId} {d : DescId} {m : Desc} {n : SlotId} {rest : List DescId}
  {lease : Lease} {c : EndCause} {pos : Position} {v : Delivery}

/-! ## Leases that end -/

/-- A HELD slot that is freed gives up one reference. -/
theorem slotRefs_freed (held : ((s.rx.get p).slots.at n).lease = some lease)
    (freed : ((t.rx.get p).slots.at n).lease = none) (others : OnlyAtIndex n (s.rx.get p).slots (t.rx.get p).slots)
    (d : DescId) : t.slotRefs p d + (if d = lease.desc then 1 else 0) = s.slotRefs p d := by
  have counts := slotRefs_update others d
  rw [LeaseSlot.holds_of_lease held, LeaseSlot.holds_of_free freed] at counts
  simpa only [decide_eq_true_eq, Bool.false_eq_true, if_false, Nat.add_zero] using counts

/-- A FREE slot that is granted takes one reference. -/
theorem slotRefs_granted (free : ((s.rx.get p).slots.at n).lease = none)
    (granted : ((t.rx.get p).slots.at n).lease = some lease)
    (others : OnlyAtIndex n (s.rx.get p).slots (t.rx.get p).slots) (d : DescId) :
    t.slotRefs p d = s.slotRefs p d + (if d = lease.desc then 1 else 0) := by
  have counts := slotRefs_update others d
  rw [LeaseSlot.holds_of_lease granted, LeaseSlot.holds_of_free free] at counts
  simpa only [decide_eq_true_eq, Bool.false_eq_true, if_false, Nat.add_zero] using counts

/-- R115, R122: the delivery under a lease that ends is settled. -/
theorem State.Tracked.settleLease (h : s.Tracked watch) (held : ((s.rx.get p).slots.at n).lease = some lease)
    (changes : ChangesOnly s t [.rx, .mst, .rpt, .att]) (ports : OnlyAt p s.rx t.rx)
    (queue : (t.rx.get p).queue = (s.rx.get p).queue) (freed : ((t.rx.get p).slots.at n).lease = none)
    (others : OnlyAtIndex n (s.rx.get p).slots (t.rx.get p).slots) (final : v.Final)
    (settled : ∀ m, s.desc lease.desc = some m → ∃ u, u.mst = s.mst ∧ Settled u t p lease.desc m v) : t.Tracked watch := by
  obtain ⟨m, found, state, lawful, leased⟩ := h.leased held
  obtain ⟨u, store, settled⟩ := settled m found
  have slots := slotRefs_freed held freed others
  have queues : ∀ d', t.queueRefs p d' = s.queueRefs p d' := fun d' => by rw [State.queueRefs, queue]; rfl
  obtain ⟨_, refs, _⟩ := id lawful
  refine h.settled found state lawful (by rw [leased]; rfl) final (changes.mbc (by simp))
    (.of_rx (changes.lanes (by simp)) ports fun d' other => ⟨queues d', ?_⟩) ⟨?_, ?_⟩ store settled
  · simpa [other] using slots d'
  · rw [queues, (refs p).1, leased]
    rfl
  · have one := slots lease.desc
    rw [(refs p).2, leased, if_pos rfl, if_pos rfl] at one
    omega

/-- R116, R118: a lease that ends without ACK puts its delivery back or gives it up. -/
theorem State.Tracked.endWithoutAck (h : s.Tracked watch) (held : ((s.rx.get p).slots.at n).lease = some lease) :
    (s.endWithoutAck p n lease.desc c pos).Tracked watch := by
  obtain ⟨m, found, state, lawful, leased⟩ := h.leased held
  obtain ⟨_, refs, _⟩ := id lawful
  rcases Nat.lt_or_ge (s.params p).redelivery (m.attempts.get p) with used | left
  · obtain ⟨changes, ⟨ended, others, ports⟩, rx, settled⟩ := State.givenUp (n := n) (c := c) (pos := pos) found used
    have queue := congrArg Rx.queue rx
    refine h.settleLease held changes ports queue (congrArg LeaseSlot.lease ended) others
      (.inr (.inl rfl)) fun m' found' => ?_
    obtain rfl := Option.some.inj (found.symm.trans found')
    exact ⟨s.raise .deliveryExpired p, rfl, settled⟩
  · obtain ⟨changes, ⟨ended, others, ports⟩, rx, mst, _⟩ := State.requeued (n := n) (c := c) (pos := pos) found left
    have slots := slotRefs_freed held (congrArg LeaseSlot.lease ended) others
    have queue := congrArg Rx.queue rx
    dsimp only at queue
    have queues : ∀ d', (s.endWithoutAck p n lease.desc c pos).queueRefs p d' =
        s.queueRefs p d' + if d' = lease.desc then 1 else 0 := fun d' => by
      rw [State.queueRefs, queue]
      by_cases own : d' = lease.desc
      · subst own
        cases pos <;> simp [State.queueRefs]
      · cases pos <;> simp [State.queueRefs, count_cons_other, own]
    have limit := SameLimits.of_mbc (changes.mbc (by simp))
    refine h.moved (v := .queued) (attempts := m.attempts) state lawful (by rw [leased]; rfl) rfl (changes.mbc (by simp))
      (.of_rx (changes.lanes (by simp)) ports fun d' other => ⟨?_, ?_⟩) ⟨?_, ?_⟩ mst fun on q => ?_
    · rw [queues, if_neg other, Nat.add_zero]
    · simpa [other] using slots d'
    · rw [queues, (refs p).1, leased, if_pos rfl]
      rfl
    · have one := slots lease.desc
      rw [(refs p).2, leased, if_pos rfl, if_pos rfl] at one
      simpa using one
    · obtain ⟨within, unqueued, unleased⟩ := (h lease.desc).2 on m found q
      rw [limit q]
      by_cases own : q = p
      · subst own
        exact ⟨within, fun _ => left, fun _ => unleased leased⟩
      · simp only [PerPort.get_set, if_neg own]
        exact ⟨within, unqueued, unleased⟩

/-! ## Grants -/

/-- R107, R111: a lease on the head of a receive queue. -/
theorem State.Tracked.grantLease (h : s.Tracked watch) (free : ((s.rx.get p).slots.at n).lease = none)
    (queue : (s.rx.get p).queue = d :: rest) : (s.grantLease p n d).Tracked watch := by
  obtain ⟨m, found, state, lawful, queued⟩ := h.queued (p := p) (d := d) (by rw [queue]; exact List.mem_cons_self)
  obtain ⟨_, refs, _⟩ := id lawful
  have changes := s.grantLease_changes p n d
  have grants := State.grantLease_eq found p n
  have rx : (s.grantLease p n d).rx.get p =
      { (s.rx.get p).modSlot n (LeaseSlot.granted ⟨d, s.leaseDeadline p⟩) with queue := rest } := by
    rw [grants]
    simp [queue]
  have ports : OnlyAt p s.rx (s.grantLease p n d).rx := fun q other => by
    rw [grants]
    simp [other]
  have slots := slotRefs_granted (t := s.grantLease p n d) (lease := ⟨d, s.leaseDeadline p⟩) free
    (by rw [rx]; simp [Rx.modSlot, LeaseSlot.granted]) (fun k other => by rw [rx]; simp [Rx.modSlot, other])
  have queues : ∀ d', s.queueRefs p d' = (s.grantLease p n d).queueRefs p d' + if d' = d then 1 else 0 := fun d' => by
    rw [State.queueRefs, State.queueRefs, rx, queue]
    by_cases own : d' = d
    · subst own
      rw [List.count_cons_self, if_pos rfl]
    · rw [count_cons_other own, if_neg own, Nat.add_zero]
  refine h.moved (v := .leased) (attempts := m.attempts.modify p (· + 1)) state lawful (by rw [queued]; rfl) rfl
    (changes.mbc (by simp)) (.of_rx (changes.lanes (by simp)) ports fun d' other => ⟨?_, ?_⟩) ⟨?_, ?_⟩ ?_ fun on q => ?_
  · rw [queues, if_neg other, Nat.add_zero]
  · rw [slots, if_neg other, Nat.add_zero]
  · have one := queues d
    rw [(refs p).1, queued, if_pos rfl, if_pos rfl] at one
    simpa using one.symm
  · rw [slots, (refs p).2, queued, if_pos rfl]
    rfl
  · rw [grants]
    rfl
  · obtain ⟨within, unqueued, unleased⟩ := (h d).2 on m found q
    rw [SameLimits.of_mbc (changes.mbc (by simp)) q]
    by_cases own : q = p
    · subst own
      have left := unqueued queued
      simp only [PerPort.get_set, PerPort.get_modify, if_true]
      exact ⟨by omega, fun q => Delivery.noConfusion q, fun _ => by omega⟩
    · simp only [PerPort.get_set, PerPort.get_modify, if_neg own]
      exact ⟨within, unqueued, unleased⟩

/-! ## Leaves -/

/-- What a change of a receive state that keeps its queue and its leases leaves. -/
theorem State.Tracked.modRx (h : s.Tracked watch) {f : Rx → Rx} (queue : ∀ r, (f r).queue = r.queue)
    (leases : ∀ r n, ((f r).slots.at n).lease = (r.slots.at n).lease) : (s.modRx p f).Tracked watch := by
  have rx : ∀ q, (s.modRx p f).rx.get q = if q = p then f (s.rx.get q) else s.rx.get q := fun q => PerPort.get_modify ..
  refine h.of_same (fun _ => rfl) fun d => .of_lists rfl (fun _ => rfl) (fun q => ?_) fun q n => ?_
  all_goals
    rw [rx]
    split
  · rw [queue]
  · rfl
  · rw [leases]
  · rfl

/-- What a change of a lane that keeps its queue leaves. -/
theorem State.Tracked.modLane (h : s.Tracked watch) {f : Lane → Lane} (queue : (f (s.lane l)).queue = (s.lane l).queue) :
    (s.modLane l f).Tracked watch := by
  refine h.of_same (fun _ => rfl) fun d => .of_lists rfl (fun k => ?_) (fun _ => rfl) fun _ _ => rfl
  rw [State.lane_modLane]
  split
  next own => rw [own, queue]
  · rfl

theorem leaveSlot_of_free (free : ((s.rx.get p).slots.at n).lease = none) : leaveSlot p s n = s := by
  rw [leaveSlot, free]

theorem leaveSlot_of_held (held : ((s.rx.get p).slots.at n).lease = some lease) :
    leaveSlot p s n = (s.modRx p fun r => r.modSlot n LeaseSlot.left).settle lease.desc p .abandoned := by
  rw [leaveSlot, held]

/-- R122: a leave gives up a leased delivery. -/
theorem State.Tracked.leaveSlot (h : s.Tracked watch) (n : SlotId) : (leaveSlot p s n).Tracked watch := by
  cases held : ((s.rx.get p).slots.at n).lease with
  | none => rwa [leaveSlot_of_free held]
  | some lease =>
    rw [leaveSlot_of_held held]
    have rx : ∀ q, (((s.modRx p fun r => r.modSlot n LeaseSlot.left).settle lease.desc p .abandoned).rx.get q) =
        if q = p then (s.rx.get q).modSlot n LeaseSlot.left else s.rx.get q := fun q => by
      rw [State.settle_rx]
      exact PerPort.get_modify ..
    refine h.settleLease (v := .abandoned) held ?_ (fun q other => (rx q).trans (if_neg other)) ?_ ?_ (fun k other => ?_)
      (.inr (.inr rfl)) fun m found => ⟨_, rfl, State.settled (s := s.modRx p _) found p .abandoned⟩
    · exact ((s.modRx_changes p _).mono (by simp)).comp ((State.settle_changes _ lease.desc p _).mono (by simp))
    all_goals rw [rx, if_pos rfl, Rx.modSlot]
    · rw [Tbl.at_put, if_pos rfl]
      rfl
    · rw [Tbl.at_put, if_neg other]

/-- R122: a leave gives up the delivery at the head of a receive queue. -/
theorem State.Tracked.leaveHead (h : s.Tracked watch) (queue : (s.rx.get p).queue = d :: rest) :
    ((s.modRx p fun r => { r with queue := r.queue.tail }).settle d p .abandoned).Tracked watch := by
  obtain ⟨m, found, state, lawful, queued⟩ := h.queued (p := p) (d := d) (by rw [queue]; exact List.mem_cons_self)
  obtain ⟨_, refs, _⟩ := id lawful
  have changes := ((s.modRx_changes p fun r => { r with queue := r.queue.tail }).mono (z := [.rx, .mst, .rpt, .att])
    (by simp)).comp ((State.settle_changes _ d p .abandoned).mono (by simp))
  have rx : ∀ q, ((s.modRx p fun r => { r with queue := r.queue.tail }).settle d p .abandoned).rx.get q =
      if q = p then { s.rx.get q with queue := (s.rx.get q).queue.tail } else s.rx.get q := fun q => by
    rw [State.settle_rx]
    exact PerPort.get_modify ..
  have slots : ∀ d', State.slotRefs ((s.modRx p fun r => { r with queue := r.queue.tail }).settle d p .abandoned) p d' =
      s.slotRefs p d' := fun d' => by
    rw [State.slotRefs, rx, if_pos rfl]
    rfl
  have queues : ∀ d', s.queueRefs p d' = State.queueRefs
      ((s.modRx p fun r => { r with queue := r.queue.tail }).settle d p .abandoned) p d' + if d' = d then 1 else 0 := fun d' => by
    rw [State.queueRefs, State.queueRefs, rx, if_pos rfl, queue, List.tail_cons]
    by_cases own : d' = d
    · subst own
      rw [List.count_cons_self, if_pos rfl]
    · rw [count_cons_other own, if_neg own, Nat.add_zero]
  refine h.settled found state lawful (by rw [queued]; rfl) (.inr (.inr rfl)) (changes.mbc (by simp))
    (.of_rx (changes.lanes (by simp)) (fun q other => (rx q).trans (if_neg other)) fun d' other => ⟨?_, slots d'⟩)
    ⟨?_, ?_⟩ rfl (State.settled (s := s.modRx p _) found p .abandoned)
  · rw [queues, if_neg other, Nat.add_zero]
  · have one := queues d
    rw [(refs p).1, queued, if_pos rfl, if_pos rfl] at one
    omega
  · rw [slots, (refs p).2, queued]
    rfl

theorem leaveHead_queue (queue : (s.rx.get p).queue = d :: rest) :
    (((s.modRx p fun r => { r with queue := r.queue.tail }).settle d p .abandoned).rx.get p).queue = rest := by
  simp [queue]

theorem State.Tracked.leaveQueue {ds : List DescId} (h : s.Tracked watch) (queue : (s.rx.get p).queue = ds) :
    (leaveQueue p ds s).Tracked watch := by
  induction ds generalizing s with
  | nil => exact h
  | cons d ds ih => exact ih (h.leaveHead queue) (leaveHead_queue queue)

theorem State.Tracked.leaveSlots (ns : List SlotId) (h : s.Tracked watch) :
    (ns.foldl (Machine.leaveSlot p) s).Tracked watch := by
  induction ns generalizing s with
  | nil => exact h
  | cons n ns ih => exact ih (h.leaveSlot n)

/-- R122: the Receive Unit's part of a leave. -/
theorem State.Tracked.leaveReceive (h : s.Tracked watch) : (s.leaveReceive p).Tracked watch := by
  refine ((h.leaveSlots (List.finRange 4)).leaveQueue rfl).modRx (fun _ => rfl) fun r n => ?_
  simp [Rx.clearEnds]

/-! ## Purges -/

theorem purgeHead_lane (queue : (s.lane l).queue = d :: rest) :
    LaneBecomes s ((s.modLane l Lane.pop).endMessage d .purged) l { s.lane l with queue := rest } := by
  have lanes : ((s.modLane l Lane.pop).endMessage d .purged).lanes = (s.modLane l Lane.pop).lanes := State.endMessage_lanes ..
  refine ⟨?_, ?_⟩
  · rw [State.lane, lanes]
    refine (State.lane_modLane s l l Lane.pop).trans ((if_pos rfl).trans ?_)
    rw [Lane.pop, queue]
    rfl
  · rw [lanes]
    exact s.modLane_onlyAt l _

/-- R35: the message at the head of a lane is purged. -/
theorem State.Tracked.purgeHead (h : s.Tracked watch) (queue : (s.lane l).queue = d :: rest) :
    ((s.modLane l Lane.pop).endMessage d .purged).Tracked watch := by
  refine h.headEnds queue (State.endMessage_mbc ..) (purgeHead_lane queue) rfl (fun q => ?_) (by simp) fun d' other => ?_
  · rw [State.endMessage_rx]
    exact ⟨rfl, rfl⟩
  · change State.desc _ d' = s.desc d'
    rw [desc_endMessage, if_neg other]
    rfl

theorem State.Tracked.purgeQueue {ds : List DescId} (h : s.Tracked watch) (queue : (s.lane l).queue = ds) :
    (purgeQueue l ds s).Tracked watch := by
  induction ds generalizing s with
  | nil => exact h
  | cons d ds ih =>
    refine ih (h.purgeHead queue) ?_
    rw [(purgeHead_lane queue).1]

theorem State.Tracked.purgeThen (h : s.Tracked watch) (x : LaneState) :
    ((s.purge l).modLane l (Lane.become x)).Tracked watch := (h.purgeQueue rfl).modLane rfl

theorem State.Tracked.leaveLane (h : s.Tracked watch) (l : LaneId) : (leaveLane p s l).Tracked watch := by
  rw [leaveLane_eq]
  split
  · exact h.purgeThen .closed
  · exact h

theorem State.Tracked.leaveLanes (h : s.Tracked watch) : (s.leaveLanes p).Tracked watch := by
  have lanes : ∀ (ls : List LaneId) (s : State), s.Tracked watch → (ls.foldl (Machine.leaveLane p) s).Tracked watch := by
    intro ls
    induction ls with
    | nil => exact fun _ h => h
    | cons l ls ih => exact fun s h => ih _ (h.leaveLane l)
  exact lanes _ s h

end

end Sys2Proof.Machine
end

section
/-! PROOFS. Release passes, message by message (06_release_engine.md, R88 to R97). -/

namespace Sys2Proof.Machine

open Sys2Proof

section

variable {watch : Prop} {s t u : State} {l : LaneId} {d : DescId} {m : Desc} {rest : List DescId} {st : Stamp}
  {settings : LaneSettings}

/-! ## One message of a pass -/

theorem staleAt_iff (maxAge : Nat) (cycle : Half) (m : Desc) :
    staleAt maxAge cycle m = true ↔ 1 ≤ maxAge ∧ maxAge < (cycle - m.submitCycle).toNat := by
  simp [staleAt, Nat.one_le_iff_ne_zero]

theorem laneBecomes_modLane (s : State) (l : LaneId) (f : Lane → Lane) : LaneBecomes s (s.modLane l f) l (f (s.lane l)) :=
  ⟨(s.lane_modLane l l f).trans (if_pos rfl), s.modLane_onlyAt l f⟩

theorem passLoop_cons (found : s.desc d = some m) (ds : List DescId) (left : Nat) (any : Bool) :
    passLoop l settings st (d :: ds) (left + 1) any s =
      if staleAt settings.maxAge st.cycle m then passLoop l settings st ds (left + 1) any (s.discardStale l d)
      else if s.holds settings m then s.modLane l Lane.countHeld
      else passLoop l settings st ds left true (s.commit l d m st) := by
  rw [passLoop, found]

/-- R89 to R97: a pass goes through the queue as the policy says, and keeps every reference accounted for. -/
theorem State.Tracked.passLoop {ds : List DescId} (left : Nat) (any : Bool) (h : s.Tracked watch)
    (queue : (s.lane l).queue = ds) : (passLoop l settings st ds left any s).Tracked watch ∧
      Pass l settings st left any s (passLoop l settings st ds left any s) := by
  induction ds generalizing s left any with
  | nil =>
    cases left with
    | zero => exact ⟨h, .burst any s⟩
    | succ left =>
      cases any with
      | true => exact ⟨h, .emptied left s queue⟩
      | false =>
        have lane := laneBecomes_modLane s l Lane.countIdle
        rw [Lane.countIdle, Lane.count, bump_eq] at lane
        exact ⟨h.modLane rfl, .idle left s _ queue (s.modLane_changes l _) lane⟩
  | cons d ds ih =>
    cases left with
    | zero => exact ⟨h, .burst any s⟩
    | succ left =>
      obtain ⟨m, found, _, _, _, _, _, waiting⟩ := h.pending (l := l) (d := d) (by rw [queue]; exact List.mem_cons_self)
      rw [passLoop_cons found]
      split
      next stale =>
        have discarded := State.headDiscarded queue found
        obtain ⟨_, _, becomes, _⟩ := id discarded
        obtain ⟨after, pass⟩ := ih (left + 1) any (h.headDiscarded queue discarded) (by rw [becomes])
        exact ⟨after, .discard left any s _ _ d ds m queue found ((staleAt_iff _ _ m).1 stale) discarded pass⟩
      next current =>
        have current : ¬ StaleIn st.cycle settings m := fun stale => current ((staleAt_iff _ _ m).2 stale)
        split
        next held =>
          obtain ⟨hold, full⟩ := (s.holds_iff m settings).1 held
          have lane := laneBecomes_modLane s l Lane.countHeld
          rw [Lane.countHeld, Lane.count, bump_eq] at lane
          exact ⟨h.modLane rfl, .hold left any s _ d ds m queue found current hold full (s.modLane_changes l _) lane⟩
        next passes =>
          have open' : settings.policy = .hold → ∀ q, m.dest.get q = true → s.isFull q = false := fun hold q dest => by
            by_contra full
            exact passes ((s.holds_iff m settings).2 ⟨hold, q, dest, by simpa using full⟩)
          have released := State.headReleased (st := st) queue fun q other =>
            (waiting q).1.trans (if_neg (ne_true_of_eq_false other))
          obtain ⟨_, ⟨becomes, _⟩, _⟩ := id released
          obtain ⟨after, pass⟩ := ih left true (h.headReleased queue found released) (by rw [becomes])
          exact ⟨after, .release left any s _ _ d ds m queue found current open' released pass⟩

/-! ## Whole passes -/

/-- R34, R90: a DRAINING lane that a pass leaves without a message closes. -/
theorem State.passEnds (s : State) (l : LaneId) (owner : Port) : PassEnds s (s.drained l owner) l owner := by
  unfold PassEnds State.drained
  split
  · refine ⟨?_, laneBecomes_modLane s l (Lane.become .closed), raisedTo_one (s.modLane l _) owner .laneClosed⟩
    exact ((s.modLane_changes l _).mono (by simp)).comp ((State.raise_changes _ _ owner).mono (by simp))
  · rfl

theorem State.Tracked.drained (h : s.Tracked watch) (owner : Port) : (s.drained l owner).Tracked watch := by
  unfold State.drained
  split
  · exact State.Tracked.of_changes (parts := [.att]) (h.modLane (f := Lane.become .closed) rfl)
      (State.raise_changes _ .laneClosed owner) (by simp)
  · exact h

theorem State.releasePass_of_empty (empty : s.currentEntry.release = none) : s.releasePass = s := by
  rw [State.releasePass, empty]

theorem State.releasePass_of_release {r : Release} (entry : s.currentEntry.release = some r) :
    s.releasePass = s.passLane r.lane r.burst ⟨s.timer.cycle, s.timer.slot⟩ := by
  rw [State.releasePass, entry]

theorem State.passLane_of_closed (closed : (s.lane l).state = .closed) (b : Nat) : s.passLane l b st = s := by
  rw [State.passLane, if_pos closed]

theorem State.passLane_of_settings (opened : (s.lane l).state ≠ .closed) (has : (s.lane l).settings = some settings)
    (b : Nat) : s.passLane l b st = (Machine.passLoop l settings st (s.lane l).queue b false s).drained l settings.owner := by
  rw [State.passLane, if_neg opened, has]

theorem State.Tracked.releasePass (h : s.Tracked watch) : s.releasePass.Tracked watch := by
  cases entry : s.currentEntry.release with
  | none => rwa [State.releasePass_of_empty entry]
  | some r =>
    rw [State.releasePass_of_release entry]
    by_cases closed : (s.lane r.lane).state = .closed
    · rwa [State.passLane_of_closed closed]
    · cases has : (s.lane r.lane).settings with
      | none =>
        rw [State.passLane, if_neg closed, has]
        exact h
      | some settings =>
        rw [State.passLane_of_settings closed has]
        exact (h.passLoop _ _ rfl).1.drained settings.owner

end

/-- Settles O48: the slot begins as the timer's rules say, and the pass then follows the queue by induction. -/
theorem releasePassFollowsPolicy : Obligations.ReleasePassFollowsPolicy := by
  unfold Obligations.ReleasePassFollowsPolicy
  intro s due high clock running next references
  have tracked : (s.slotBegun due).Tracked False :=
    (State.referencesLawful_iff.1 references).of_changes (s.slotBegun_changes due) (by simp)
  refine ⟨_, _, exec_slotStart high clock running next, s.slotBegins due, ?_⟩
  intro stamp i slot e
  have current : i = ⟨(s.slotBegun due).timer.slot.toNat, (s.slotBegun due).timer.slot.isLt⟩ := Fin.ext slot
  have entry : (s.slotBegun due).currentEntry.release = e := by
    rw [State.currentEntry, ← current]
  refine ⟨fun empty => State.releasePass_of_empty (entry.trans empty), fun l b named => ?_⟩
  rw [State.releasePass_of_release (entry.trans named)]
  refine ⟨fun closed => State.passLane_of_closed closed b, fun settings opened has => ?_⟩
  rw [State.passLane_of_settings opened has]
  exact ⟨_, (tracked.passLoop b false rfl).2, State.passEnds _ l settings.owner⟩

end Sys2Proof.Machine
end

section
/-! PROOFS. Every command and happening keeps every reference to a descriptor accounted for, and every attempt count within
the redelivery limit (01_message_store.md, R3 to R6; R23, R104, R116). -/

namespace Sys2Proof.Machine

open Sys2Proof

section

variable {watch : Prop} {s t : State} {p : Port} {d : DescId}

/-! ## Changes that move no reference -/

theorem tracked_reads : ReadsOnly (State.Tracked watch) [.mst, .lanes, .rx, .mbc] := fun s t same h =>
  h.of_same (.of_mbc (same .mbc (by simp))) fun d =>
    .of_parts (same .mst (by simp)) (same .lanes (by simp)) (same .rx (by simp))

theorem State.Tracked.of_limits (h : s.Tracked watch) {parts : List Part} (changes : ChangesOnly s t parts)
    (apart : ∀ x ∈ parts, x ∉ [Part.mst, .lanes, .rx]) (limits : SameLimits s t) : t.Tracked watch := by
  have same : ∀ x, x ∈ [Part.mst, .lanes, .rx] → x.same s t := fun x watched =>
    changes x fun named => apart x named watched
  exact h.of_same limits fun d => .of_parts (same .mst (by simp)) (same .lanes (by simp)) (same .rx (by simp))

/-- Where no descriptor is in use and no list names one, every reference is accounted for. -/
theorem tracked_of_empty (free : ∀ d, s.desc d = none) (lanes : ∀ l, (s.lane l).queue = [])
    (ports : ∀ p, (s.rx.get p).queue = [] ∧ ∀ n, ((s.rx.get p).slots.at n).lease = none) : s.Tracked watch := fun d => by
  refine .of_free (free d) (fun l => ?_) fun p => ⟨?_, ?_⟩
  · rw [State.laneRefs, lanes]
    rfl
  · rw [State.queueRefs, (ports p).1]
    rfl
  · refine List.countP_eq_zero.2 fun n _ => ?_
    rw [LeaseSlot.holds_of_free ((ports p).2 n)]
    exact Bool.false_ne_true

theorem tracked_reset (mst : t.mst = Mst.reset s.mst.pool) (lanes : t.lanes = Tbl.fill 32 Lane.reset)
    (rx : t.rx = PerPort.fill Rx.reset) : t.Tracked watch := by
  refine tracked_of_empty (fun d => ?_) (fun l => ?_) fun p => ?_
  · rw [State.desc, mst]
    exact Tbl.at_fill _ d
  · rw [State.lane, lanes, Tbl.at_fill]
    rfl
  · rw [rx, PerPort.get_fill]
    exact ⟨rfl, fun n => congrArg LeaseSlot.lease (Tbl.at_fill _ n)⟩

/-- A redelivery limit is written only while no message is held. -/
theorem State.Tracked.written (h : s.Tracked watch) (empty : watch → s.SetupIsEmpty) (w : SetupWritten s t) : t.Tracked watch := by
  have lists : ∀ d, SameRefs s t d := fun d =>
    .of_parts (w.changes.mst (by simp)) (w.changes.lanes (by simp)) (w.changes.rx (by simp))
  refine fun d => ⟨(h d).1.of_same (lists d), fun on m found => ?_⟩
  rw [(lists d).desc, empty on w.setup d] at found
  cases found

/-! ## Leases -/

theorem State.Tracked.ackLease {n : SlotId} {l : Lease} (h : s.Tracked watch)
    (held : ((s.rx.get p).slots.at n).lease = some l) :
    ((s.endLease p n .settled).settle l.desc p .delivered).Tracked watch := by
  have rx : ((s.endLease p n .settled).settle l.desc p .delivered).rx =
      s.rx.modify p fun r => r.modSlot n (LeaseSlot.ended .settled) := by rw [State.settle_rx, State.endLease_rx]
  have own : ((s.endLease p n .settled).settle l.desc p .delivered).rx.get p =
      (s.rx.get p).modSlot n (LeaseSlot.ended .settled) := by rw [rx, PerPort.get_modify, if_pos rfl]
  refine h.settleLease (v := .delivered) held ?_ (fun q other => ?_) (by rw [own]; rfl) ?_ (fun k other => ?_) (.inl rfl)
    fun m found => ⟨_, rfl, State.settled (s := s.endLease p n .settled) found p .delivered⟩
  · exact ((s.endLease_changes p n .settled).mono (by simp)).comp ((State.settle_changes _ l.desc p _).mono (by simp))
  · rw [rx, PerPort.get_modify, if_neg other]
  · rw [own, Rx.modSlot, Tbl.at_put, if_pos rfl]
    rfl
  · rw [own, Rx.modSlot, Tbl.at_put, if_neg other]

theorem State.Tracked.expire {n : SlotId} {l : Lease} (h : s.Tracked watch)
    (held : ((s.rx.get p).slots.at n).lease = some l) : (s.expire p n l).Tracked watch := by
  have timed := h.of_changes (timer_changes s (s.timer.reach l.deadline)) (by simp)
  have counted := timed.modRx (p := p) (f := fun r => { r with leaseExpiries := bump r.leaseExpiries }) (fun _ => rfl)
    fun _ _ => rfl
  have expiring : (s.expiring p l).Tracked watch := counted.of_changes (State.raise_changes _ .leaseExpired p) (by simp)
  rw [State.expire_eq]
  exact expiring.endWithoutAck (by rw [State.expiring_rx]; exact held)

/-! ## Membership -/

theorem State.Tracked.setPort (h : s.Tracked watch) (p : Port) (st : PortState) : (s.setPort p st).Tracked watch :=
  h.of_limits (s.setPort_changes p st) (by simp) fun _ => rfl

theorem State.Tracked.markReady (h : s.Tracked watch) : (s.markReady p).Tracked watch := by
  unfold State.markReady
  split
  · exact h.setPort p _
  · exact h

theorem State.Tracked.startRun (h : s.Tracked watch) : s.startRun.Tracked watch := by
  have started : State.Tracked watch { s with mbc := s.mbc.start } :=
    h.of_same (fun _ => rfl) fun d => ⟨rfl, fun _ => rfl, fun _ => rfl, fun _ => rfl⟩
  unfold State.startRun State.startTimer
  refine State.Tracked.releasePass (started.of_changes (parts := [.att, .cal, .timer, .plan]) ?_ (by simp))
  refine ChangesOnly.comp ?_ ((State.scheduleNext_changes _ _).mono (by simp))
  refine ChangesOnly.comp ?_ ((State.boundary_changes _ _).mono (by simp))
  refine ChangesOnly.comp ?_ ((timer_changes _ _).mono (by simp))
  exact ((State.raiseAll_changes _ _ _).mono (by simp)).comp ((State.copyHeader_changes _).mono (by simp))

/-- R160: a leave ends messages and gives up deliveries one at a time. -/
theorem State.Tracked.leave (h : s.Tracked watch) : (s.leave p).Tracked watch := by
  have told : ((((s.setPort p .offline).raiseAll .memberChange (s.otherOnline p)).leavePlan p).leaveShadow p).Tracked watch := by
    refine (h.setPort p .offline).of_changes (parts := [.att, .plan, .cal]) ?_ (by simp)
    refine ChangesOnly.comp ?_ ((State.leaveShadow_changes _ p).mono (by simp))
    exact ((State.raiseAll_changes _ _ _).mono (by simp)).comp ((State.leavePlan_changes _ p).mono (by simp))
  have received := (told.leaveLanes (p := p)).leaveReceive (p := p)
  have moves := moves_leaveReceive_of_leave s p
  refine received.of_limits (parts := [.rpt, .mbc, .timer, .cal]) ?_ (by simp) fun q => ?_
  · exact ChangesOnly.comp ((State.modRpt_changes _ p _).mono (by simp)) ((State.endRunIfEmpty_changes _).mono (by simp))
  · have params := congrArg Mbc.params moves.mbc
    exact congrArg Params.redelivery (State.params_congr ((s.leave_ports p).2.1.trans params.symm) q)

theorem State.Tracked.clearBlockCounters (h : s.Tracked watch) : (s.clearBlockCounters p).Tracked watch := by
  have counted : (s.modRx p Rx.clearCounters).Tracked watch := h.modRx (fun _ => rfl) fun _ _ => rfl
  exact counted.of_same (fun _ => rfl) fun d => .of_lists rfl (fun _ => rfl) (fun _ => rfl) fun _ _ => rfl

theorem State.Tracked.resetPort (h : s.Tracked watch) : (s.resetPort p).Tracked watch := by
  have member : (s.resetMembership p).Tracked watch := resetMembership_keeps h (fun _ => h.leave) fun _ => h.setPort p _
  have cleared : (((s.resetMembership p).clearBlockCounters p).modRx p Rx.clearEnds).Tracked watch :=
    member.clearBlockCounters.modRx (fun _ => rfl) fun r n => by simp [Rx.clearEnds]
  refine cleared.of_changes (parts := [.link, .att]) ?_ (by simp)
  exact ((State.modLink_changes _ p _).mono (by simp)).comp ((State.modAtt_changes _ p _).mono (by simp))

/-! ## Every command and happening -/

theorem tracked_exec {i : Instr} (touched : touches i [.mst, .lanes, .rx, .mbc] = true) (empty : watch → s.SetupIsEmpty)
    (h : s.Tracked watch) (runs : exec i s = .next t) : t.Tracked watch := by
  have command : ∀ {p code b}, i.command? = some (p, code, b) → (actOf i s).1.Tracked watch → t.Tracked watch :=
    fun named act => tracked_reads.exec_command (by simp) named runs h fun _ => act
  have written : ∀ u, SetupWritten s u → u.Tracked watch := fun u w => h.written empty w
  cases i with
  | resetNRelease straps =>
    cases runs
    exact tracked_reset (s := s) rfl rfl rfl
  | slotStart =>
    exact slotStart_keeps runs h fun due _ _ _ => State.Tracked.releasePass (h.of_changes (s.slotBegun_changes due) (by simp))
  | leaseExpiry p n =>
    exact leaseExpiry_keeps runs h fun l held => h.expire held
  | readCounters p b =>
    obtain ⟨q, named⟩ := exists_port b
    refine command rfl ?_
    rw [actOf, readCounters_eq s p named]
    refine checked_keeps h fun _ => ?_
    by_cases keep : byteAt b 1 = 0
    · simpa only [reply, if_pos keep] using h
    · simp only [reply, if_neg keep]
      exact h.clearBlockCounters.of_changes (State.modLink_changes _ p _) (by simp)
  | setQuota p b => exact command rfl (setupWrites_keep h written (.inl ⟨p, b, rfl⟩))
  | setRxq p b => exact command rfl (setupWrites_keep h written (.inr (.inl ⟨p, b, rfl⟩)))
  | setLease p b => exact command rfl (setupWrites_keep h written (.inr (.inr (.inl ⟨p, b, rfl⟩))))
  | setDeadline p b => exact command rfl (setupWrites_keep h written (.inr (.inr (.inr ⟨p, b, rfl⟩))))
  | setFrame p b =>
    refine command rfl (setFrame_keeps h (fun u _ h => ?_) fun hd _ _ => h.of_changes (s.setShadowHeader_changes hd) (by simp))
    exact h.of_limits u.clearReady_changes (by simp) fun q => congrArg Params.redelivery (u.params_clearReady q)
  | openLane p b =>
    exact command rfl (openLane_keeps h fun _ _ l _ _ _ => h.modLane rfl)
  | closeLane p b => exact command rfl (closeLane_keeps h fun l _ _ => h.modLane rfl)
  | send p b =>
    refine command rfl (send_keeps h (fun f => ?_) fun _ l st d a _ _ _ lowest _ _ _ _ _ _ => ?_)
    · exact h.of_same (fun _ => rfl) fun d => .of_lists rfl (fun _ => rfl) (fun _ => rfl) fun _ _ => rfl
    · exact h.submitted ((s.lowestFree_eq_some d).1 lowest).1 a
  | fetch p b => exact command rfl (fetch_keeps h fun _ n d rest free queue => h.grantLease free queue)
  | ack p b =>
    exact command rfl (ack_keeps h fun _ n l held => h.ackLease held)
  | returnLease p b => exact command rfl (returnLease_keeps h fun _ n l pos held => h.endWithoutAck held)
  | purgeLane p b => exact command rfl (purgeLane_keeps h fun l _ => h.purgeThen _)
  | ready p b => exact command rfl (ready_keeps h (fun _ => h.markReady) fun _ _ => h.markReady.startRun)
  | unready p b => exact command rfl (unready_keeps h fun _ => h.setPort p _)
  | join p b =>
    exact command rfl (join_keeps h fun _ _ =>
      (h.setPort p .online).of_changes (State.raiseAll_changes _ _ _) (by simp))
  | leave p b => exact command rfl (leave_keeps h fun _ _ => h.leave)
  | portReset p b => exact command rfl (portReset_keeps h h.resetPort)
  | _ => exact (Bool.false_ne_true touched).elim

/-- A command or happening keeps the accounting, whether or not it touches what it reads. -/
theorem tracked_step (empty : watch → s.SetupIsEmpty) (h : s.Tracked watch) (runs : step s = .next t) : t.Tracked watch := by
  rcases step_cases runs with ⟨i, rest, runs⟩ | ⟨q, n, now, rfl⟩
  · have queued : (s.withPending rest).Tracked watch := tracked_reads s (s.withPending rest) (by simp [Part.same]) h
    cases touched : touches i [.mst, .lanes, .rx, .mbc] with
    | true => exact tracked_exec (s := s.withPending rest) touched empty queued runs
    | false => exact tracked_reads.exec_untouched touched runs queued
  · exact tracked_reads s _ (by simp [Part.same]) h

end

/-- Settles O57: the accounting is kept reference by reference, with the attempts beside it. -/
theorem stepKeepsReferencesLawful : Obligations.StepKeepsReferencesLawful := by
  unfold Obligations.StepKeepsReferencesLawful
  refine ⟨fun s t h runs => ?_, fun s t references empty attempts runs => ?_⟩
  · exact State.referencesLawful_iff.2 (tracked_step (fun off => off.elim) (State.referencesLawful_iff.1 h) runs)
  · exact (State.tracked_true_iff.1
      (tracked_step (fun _ => empty) (State.tracked_true_iff.2 ⟨references, attempts⟩) runs)).2

end Sys2Proof.Machine
end

section
/-! PROOFS. The messages and deliveries that a purge or a leave ends, one after the other (02_lanes.md, R35, R38;
07_receive_queues_and_leases.md, R122). -/

namespace Sys2Proof.Machine

open Sys2Proof

section

variable {watch : Prop} {s t u : State} {p : Port} {l : LaneId} {d : DescId} {m : Desc} {n : SlotId} {o : MsgOutcome}
  {v : Delivery} {ds ds' : List DescId}

/-! ## Chains of ended messages -/

/-- A change beside the store, the reports, the attention states and the members does not bear on a message end after it. -/
theorem MessageEnded.after {parts : List Part} (h : MessageEnded u t d m o) (changes : ChangesOnly s u parts)
    (apart : ∀ x ∈ parts, x ∉ [Part.mst, .rpt, .att, .mbc]) : MessageEnded s t d m o := by
  have same : ∀ x, x ∈ [Part.mst, .rpt, .att, .mbc] → x.same s u := fun x watched =>
    changes x fun named => apart x named watched
  have mst : u.mst = s.mst := same .mst (by simp)
  have rpt : u.rpt = s.rpt := same .rpt (by simp)
  have att : u.att = s.att := same .att (by simp)
  have mbc : u.mbc = s.mbc := same .mbc (by simp)
  unfold MessageEnded RaisedTo State.online State.portState at h ⊢
  rwa [mst, rpt, att, mbc] at h

theorem Settled.after {parts : List Part} (h : Settled u t p d m v) (changes : ChangesOnly s u parts)
    (apart : ∀ x ∈ parts, x ∉ [Part.mst, .rpt, .att, .mbc]) : Settled s t p d m v := by
  have same : ∀ x, x ∈ [Part.mst, .rpt, .att, .mbc] → x.same s u := fun x watched =>
    changes x fun named => apart x named watched
  have mst : u.mst = s.mst := same .mst (by simp)
  have rpt : u.rpt = s.rpt := same .rpt (by simp)
  have att : u.att = s.att := same .att (by simp)
  obtain ⟨ends, stands⟩ := h
  rw [mst, rpt, att] at stands
  exact ⟨fun last => (ends last).after changes apart, stands⟩

theorem MessagesPurged.after (h : MessagesPurged ds u t) (changes : ChangesOnly s u [.lanes]) : MessagesPurged ds s t := by
  cases h with
  | done _ _ kept => exact .done s t (changes.comp kept)
  | next d ds m _ x _ found ended kept more =>
    have mst : u.mst = s.mst := changes.mst (by simp)
    refine .next d ds m s x t ?_ (ended.after changes (by simp)) ((changes.mono (by simp)).comp kept) more
    rwa [State.desc, mst] at found

theorem MessagesPurged.append (h : MessagesPurged ds s u) (h' : MessagesPurged ds' u t) :
    MessagesPurged (ds ++ ds') s t := by
  induction h with
  | done s u kept => exact h'.after kept
  | next d ds m s x u found ended kept _ ih => exact .next d _ m s x t found ended kept (ih h')

theorem MessagesPurged.before (h : MessagesPurged ds s u) (changes : ChangesOnly u t [.lanes]) : MessagesPurged ds s t := by
  rw [← List.append_nil ds]
  exact h.append (.done u t changes)

theorem DeliveriesAbandoned.after (h : DeliveriesAbandoned p ds u t) (changes : ChangesOnly s u [.rx]) :
    DeliveriesAbandoned p ds s t := by
  cases h with
  | done _ _ kept => exact .done s t (changes.comp kept)
  | next d ds m _ x _ found settled kept more =>
    have mst : u.mst = s.mst := changes.mst (by simp)
    refine .next d ds m s x t ?_ (settled.after changes (by simp)) ((changes.mono (by simp)).comp kept) more
    rwa [State.desc, mst] at found

theorem DeliveriesAbandoned.append (h : DeliveriesAbandoned p ds s u) (h' : DeliveriesAbandoned p ds' u t) :
    DeliveriesAbandoned p (ds ++ ds') s t := by
  induction h with
  | done s u kept => exact h'.after kept
  | next d ds m s x u found settled kept _ ih => exact .next d _ m s x t found settled kept (ih h')

theorem DeliveriesAbandoned.before (h : DeliveriesAbandoned p ds s u) (changes : ChangesOnly u t [.rx]) :
    DeliveriesAbandoned p ds s t := by
  rw [← List.append_nil ds]
  exact h.append (.done u t changes)

/-! ## Purges -/

/-- R35: the messages of a queue end as PURGED, head first. -/
theorem messagesPurged_purgeQueue (h : s.Tracked watch) (queue : (s.lane l).queue = ds) :
    MessagesPurged ds s (purgeQueue l ds s) := by
  induction ds generalizing s with
  | nil => exact .done s s (.refl s _)
  | cons d ds ih =>
    obtain ⟨m, found, _⟩ := h.pending (l := l) (d := d) (by rw [queue]; exact List.mem_cons_self)
    have changes : ChangesOnly s ((s.modLane l Lane.pop).endMessage d .purged) [.lanes, .mst, .rpt, .att] :=
      ((s.modLane_changes l _).mono (by simp)).comp ((State.endMessage_changes _ d .purged).mono (by simp))
    refine .next d ds m s _ _ found (State.messageEnded (s := s.modLane l Lane.pop) found .purged) changes ?_
    exact ih (h.purgeHead queue) (by rw [(purgeHead_lane queue).1])

theorem desc_purgeQueue (l : LaneId) (ds : List DescId) (s : State) (d : DescId) :
    (purgeQueue l ds s).desc d = if d ∈ ds then none else s.desc d := by
  induction ds generalizing s with
  | nil => rfl
  | cons e ds ih =>
    have popped : (s.modLane l Lane.pop).desc d = s.desc d := rfl
    rw [purgeQueue_cons, ih, State.desc_endMessage, popped]
    by_cases own : d = e <;> simp [own]

theorem State.purgeClose_changes (s : State) (l : LaneId) :
    ChangesOnly (s.purge l) (s.purgeClose l) [.lanes] := State.modLane_changes _ l _

/-- R35: what a purge makes of a lane's state. -/
theorem Lane.purgeState_eq {ln : Lane} (opened : ln.state ≠ .closed) :
    ln.purgeState = (if ln.state = .draining then .closed else .opened) ∧
      ln.purgeState.code = if ln.state = .draining then 0 else 1 := by
  unfold Lane.purgeState
  cases state : ln.state with
  | closed => exact absurd state opened
  | opened => exact ⟨rfl, rfl⟩
  | draining => exact ⟨rfl, rfl⟩

/-- Settles O24: the checks in order, and then the queue is purged head first. -/
theorem purgeLaneEndsItsMessages : Obligations.PurgeLaneEndsItsMessages := by
  unfold Obligations.PurgeLaneEndsItsMessages
  intro s p b ht
  have purges := purgeLane_eq s p b
  dsimp only
  split
  next st failing => exact justAnswers_of_failing (exec_purgeLane s p b) ht purges failing
  next passing =>
    have low : byteAt b 0 < 32 := of_decide_eq_true (passes_of_none passing (st := .badArgument) (by simp))
    have opened : (s.lane (laneAt b 0)).state ≠ .closed := by
      have passes := (firstFailing_eq_none.1 passing) ((s.laneNo (byteAt b 0)).state != .closed, .laneState) (by simp)
      rw [s.laneNo_byteAt low] at passes
      simpa using passes
    have changes : ChangesOnly s (s.purgeClose (laneAt b 0)) [.lanes, .mst, .rpt, .att] :=
      ((s.purge_changes (laneAt b 0)).mono (by simp)).comp ((s.purgeClose_changes _).mono (by simp))
    obtain ⟨runs, answers, changes⟩ := answers_reply_of_act (exec_purgeLane s p b) ht
      (purges.trans (checked_of_none passing _)) changes (by simp)
    obtain ⟨state, code⟩ := Lane.purgeState_eq opened
    have lane := s.lane_purgeClose (laneAt b 0)
    have purged : ∀ a, ChangesOnly (s.purge (laneAt b 0)) ((s.purgeClose (laneAt b 0)).answer p a) [.link, .lanes] := fun a =>
      ((s.purgeClose_changes _).mono (by simp)).comp ((State.answer_changes _ p a).mono (by simp))
    rw [s.laneNo_byteAt low] at runs answers changes ⊢
    rw [code] at runs answers changes
    refine ⟨_, laneAt b 0, runs, answers, changes, laneAt_val low, fun k other => ?_, ?_, fun d => ?_, fun empty => ?_,
      fun d m queue found => ?_, fun references => ⟨_, ?_, purged _⟩⟩
    · exact (State.lane_answer ..).trans ((lane k).trans (if_neg other))
    · rw [State.lane_answer, lane, if_pos rfl, state]
    · exact desc_purgeQueue (laneAt b 0) _ s d
    · have none : s.purge (laneAt b 0) = s := by rw [State.purge, empty]; rfl
      refine ChangesOnly.comp ?_ (purged _)
      rw [none]
      exact .refl s _
    · have one : s.purge (laneAt b 0) = (s.modLane (laneAt b 0) Lane.pop).endMessage d .purged := by
        rw [State.purge, queue]
        rfl
      unfold State.purgeClose
      rw [one]
      exact State.messageEnded (s := s.modLane (laneAt b 0) Lane.pop) found .purged
    · exact messagesPurged_purgeQueue (State.referencesLawful_iff.1 references) rfl

end

end Sys2Proof.Machine
end

section
/-! PROOFS. LEAVE and PORT_RESET (10_membership_and_start_up.md, R160, R161, R163; Table 10-6). -/

namespace Sys2Proof.Machine

open Sys2Proof

section

variable {watch : Prop} {s t u : State} {p : Port} {l : LaneId} {d : DescId} {m : Desc} {n : SlotId} {ds : List DescId}

/-! ## The messages of the lanes of a port that leaves -/

theorem leaveLane_of_stays (stays : (s.lane l).leavesWith p = false) : leaveLane p s l = s := by
  rw [leaveLane_eq, stays, if_neg Bool.false_ne_true]

theorem leaveLane_of_leaves (leaves : (s.lane l).leavesWith p = true) :
    leaveLane p s l = (s.purge l).modLane l (Lane.become .closed) := by
  rw [leaveLane_eq, if_pos leaves]

/-- R38: the messages of p's lanes end as PURGED, lane by lane. -/
theorem messagesPurged_foldl_leaveLane {ls : List LaneId} (nodup : ls.Nodup) (h : s.Tracked watch) :
    MessagesPurged ((ls.filter fun l => (s.lane l).leavesWith p).flatMap fun l => (s.lane l).queue) s
      (ls.foldl (leaveLane p) s) := by
  induction ls generalizing s with
  | nil => exact .done s s (.refl s _)
  | cons l ls ih =>
    obtain ⟨fresh, nodup⟩ := List.nodup_cons.1 nodup
    have others : ∀ k ∈ ls, (leaveLane p s l).lane k = s.lane k := fun k member => by
      rw [lane_leaveLane, if_neg]
      rintro ⟨rfl, _⟩
      exact fresh member
    have rest := ih nodup (h.leaveLane (p := p) l)
    have same : ((ls.filter fun k => ((leaveLane p s l).lane k).leavesWith p).flatMap fun k =>
        ((leaveLane p s l).lane k).queue) =
        (ls.filter fun k => (s.lane k).leavesWith p).flatMap fun k => (s.lane k).queue := by
      rw [List.filter_congr fun k member => by rw [others k member]]
      exact List.flatMap_congr fun k member => by rw [others k (List.mem_filter.1 member).1]
    rw [same] at rest
    rw [List.foldl_cons]
    cases leaves : (s.lane l).leavesWith p with
    | false =>
      rw [leaveLane_of_stays leaves] at rest ⊢
      rwa [List.filter_cons_of_neg (by simpa using leaves)]
    | true =>
      rw [List.filter_cons_of_pos (p := fun l => (s.lane l).leavesWith p) leaves, List.flatMap_cons]
      refine MessagesPurged.append ?_ rest
      rw [leaveLane_of_leaves leaves]
      exact (messagesPurged_purgeQueue h rfl).before (State.modLane_changes _ l _)

/-! ## The deliveries of a port that leaves -/

/-- R122: what slots of `p` lease, in their order. -/
def State.leasedIn (s : State) (p : Port) (ns : List SlotId) : List DescId :=
  ns.filterMap fun n => ((s.rx.get p).slots.at n).lease.map (·.desc)

theorem leaveSlot_rx (s : State) (p : Port) (n : SlotId) (q : Port) : (leaveSlot p s n).rx.get q =
    if q = p ∧ ((s.rx.get p).slots.at n).lease.isSome then (s.rx.get p).modSlot n LeaseSlot.left else s.rx.get q := by
  cases held : ((s.rx.get p).slots.at n).lease with
  | none => rw [leaveSlot_of_free held, if_neg (by simp)]
  | some lease =>
    rw [leaveSlot_of_held held, State.settle_rx]
    refine (PerPort.get_modify ..).trans ?_
    by_cases own : q = p
    · subst own
      simp
    · simp [own]

theorem deliveriesAbandoned_foldl_leaveSlot {ns : List SlotId} (nodup : ns.Nodup) (h : s.Tracked watch) :
    DeliveriesAbandoned p (s.leasedIn p ns) s (ns.foldl (leaveSlot p) s) := by
  induction ns generalizing s with
  | nil => exact .done s s (.refl s _)
  | cons n ns ih =>
    obtain ⟨fresh, nodup⟩ := List.nodup_cons.1 nodup
    have rest := ih nodup (h.leaveSlot (p := p) n)
    have same : (leaveSlot p s n).leasedIn p ns = s.leasedIn p ns := by
      refine List.filterMap_congr fun k member => ?_
      have other : k ≠ n := fun own => fresh (own ▸ member)
      rw [leaveSlot_rx]
      split
      · rw [Rx.modSlot, Tbl.at_put, if_neg other]
      · rfl
    rw [same] at rest
    rw [List.foldl_cons]
    cases held : ((s.rx.get p).slots.at n).lease with
    | none =>
      rw [leaveSlot_of_free held] at rest ⊢
      rwa [State.leasedIn, List.filterMap_cons_none (by rw [held]; rfl)]
    | some lease =>
      obtain ⟨m, found, _⟩ := h.leased held
      rw [State.leasedIn, List.filterMap_cons_some (by rw [held]; rfl)]
      refine .next lease.desc _ m s _ _ found ?_ (leaveSlot_changes s p n) rest
      rw [leaveSlot_of_held held]
      exact State.settled (s := s.modRx p _) found p .abandoned

theorem deliveriesAbandoned_leaveQueue (h : s.Tracked watch) (queue : (s.rx.get p).queue = ds) :
    DeliveriesAbandoned p ds s (leaveQueue p ds s) := by
  induction ds generalizing s with
  | nil => exact .done s s (.refl s _)
  | cons d ds ih =>
    obtain ⟨m, found, _⟩ := h.queued (p := p) (d := d) (by rw [queue]; exact List.mem_cons_self)
    have changes := ((s.modRx_changes p fun r => { r with queue := r.queue.tail }).mono (z := [.rx, .mst, .rpt, .att])
      (by simp)).comp ((State.settle_changes _ d p .abandoned).mono (by simp))
    exact .next d ds m s _ _ found (State.settled (s := s.modRx p _) found p .abandoned) changes
      (ih (h.leaveHead queue) (leaveHead_queue queue))

/-- R122: what the slots give up leaves every receive queue as it stands. -/
theorem foldl_leaveSlot_rx (ns : List SlotId) (s : State) : OnlyAt p s.rx (ns.foldl (leaveSlot p) s).rx ∧
    ((ns.foldl (leaveSlot p) s).rx.get p = { s.rx.get p with slots := ((ns.foldl (leaveSlot p) s).rx.get p).slots }) := by
  induction ns generalizing s with
  | nil => exact ⟨fun _ _ => rfl, rfl⟩
  | cons n ns ih =>
    obtain ⟨others, own⟩ := ih (leaveSlot p s n)
    rw [List.foldl_cons]
    refine ⟨fun q other => (others q other).trans ?_, own.trans ?_⟩
    · rw [leaveSlot_rx, if_neg fun both => other both.1]
    · rw [leaveSlot_rx]
      split <;> rfl

theorem State.leaveReceive_eq (s : State) (p : Port) : s.leaveReceive p =
    (leaveQueue p (s.rx.get p).queue ((List.finRange 4).foldl (leaveSlot p) s)).modRx p Rx.clearEnds := by
  unfold State.leaveReceive
  dsimp only
  rw [(foldl_leaveSlot_rx (List.finRange 4) s).2]

/-- R122: p's deliveries become ABANDONED, its leases first. -/
theorem deliveriesAbandoned_leaveReceive (h : s.Tracked watch) :
    DeliveriesAbandoned p (s.references p) s (s.leaveReceive p) := by
  rw [State.leaveReceive_eq]
  refine DeliveriesAbandoned.before ?_ (State.modRx_changes _ p _)
  exact (deliveriesAbandoned_foldl_leaveSlot (List.nodup_finRange 4) h).append
    (deliveriesAbandoned_leaveQueue (h.leaveSlots _) (by rw [(foldl_leaveSlot_rx (List.finRange 4) s).2]))

end

end Sys2Proof.Machine
end

section
/-! PROOFS. LEAVE, part by part (10_membership_and_start_up.md, R160, R161; Table 10-6). -/

namespace Sys2Proof.Machine

open Sys2Proof

section

variable {watch : Prop} {s t u : State} {p : Port} {l : LaneId} {d : DescId} {m : Desc} {n : SlotId} {ds : List DescId}

/-! ## Parts 1 to 3: the members, the plan and the shadow -/

/-- The state of a leave after parts 1 to 3 of Table 10-6. -/
def State.leaveTold (s : State) (p : Port) : State :=
  (((s.setPort p .offline).raiseAll .memberChange (s.otherOnline p)).leavePlan p).leaveShadow p

theorem State.leaveTold_changes (s : State) (p : Port) : ChangesOnly s (s.leaveTold p) [.mbc, .plan, .cal, .att] := by
  refine ChangesOnly.comp ?_ ((State.leaveShadow_changes _ p).mono (by simp))
  refine ChangesOnly.comp ?_ ((State.leavePlan_changes _ p).mono (by simp))
  exact ((s.setPort_changes p .offline).mono (by simp)).comp ((State.raiseAll_changes _ _ _).mono (by simp))

theorem State.leaveTold_mbc (s : State) (p : Port) :
    (s.leaveTold p).mbc = { s.mbc with ports := s.mbc.ports.set p .offline } := by
  unfold State.leaveTold
  rw [(State.leaveShadow_changes _ p).mbc (by simp), (State.leavePlan_changes _ p).mbc (by simp), State.raiseAll_mbc,
    State.setPort_mbc]

theorem mem_otherOnline (s : State) (p q : Port) : q ∈ s.otherOnline p ↔ q ≠ p ∧ s.online q = true := by
  simp [State.otherOnline]

/-- R160, part 1: the other ONLINE ports are told. -/
theorem State.leaveFirst_att (s : State) (p q : Port) :
    ((s.setPort p .offline).raiseAll .memberChange (s.otherOnline p)).att.get q =
      if q ≠ p ∧ s.online q = true then (s.att.get q).raise .memberChange else s.att.get q := by
  refine (State.raiseAll_att .memberChange _ (s.setPort p .offline) (s.otherOnline_nodup p) q).trans ?_
  simp only [mem_otherOnline]
  rfl

theorem State.leaveFirst_online (s : State) (p q : Port) :
    ((s.setPort p .offline).raiseAll .memberChange (s.otherOnline p)).online q = (q != p && s.online q) := by
  rw [State.online, State.portState, State.raiseAll_mbc]
  change ((s.setPort p .offline).portState q == .online) = _
  rw [State.portState_setPort]
  by_cases own : q = p <;> simp [own, State.online]

/-- R70, R73: a leave that decides the standing proposal. -/
theorem State.leavePlan_of_decided {r : Proposal} {o : PlanOutcome} (decided : s.decidedByLeave p = some (r, o)) :
    s.leavePlan p = s.decidePlan r o := by
  unfold State.decidedByLeave at decided
  unfold State.leavePlan
  have owned : s.cal.shadow.ownedBy p = (List.finRange 256).any fun i => (s.shadowEntry i).owner == some p :=
    s.cal.shadow.ownedBy_eq p
  rw [← owned] at decided
  cases standing : s.plan.proposal with
  | none =>
    rw [standing] at decided
    cases decided
  | some r' =>
    rw [standing] at decided
    dsimp only at decided ⊢
    split at decided
    next own =>
      cases decided
      rw [if_pos own]
    next other =>
      split at decided
      next entry =>
        cases decided
        rw [if_neg other, if_pos entry]
      · cases decided

/-- R74: a leave that decides nothing tells no port of the plan. -/
theorem State.leavePlan_att_of_undecided (undecided : s.decidedByLeave p = none) : (s.leavePlan p).att = s.att := by
  unfold State.leavePlan
  cases standing : s.plan.proposal with
  | none => rfl
  | some r =>
    obtain ⟨other, unowned⟩ := State.undecided_leave undecided standing
    have entries : s.cal.shadow.ownedBy p = false := by
      rw [Bank.ownedBy_eq]
      simpa [State.shadowEntry] using unowned
    dsimp only
    rw [if_neg other, entries, if_neg Bool.false_ne_true]
    split <;> rfl

theorem State.leaveFirst_decidedByLeave (s : State) (p : Port) :
    ((s.setPort p .offline).raiseAll .memberChange (s.otherOnline p)).decidedByLeave p = s.decidedByLeave p := by
  unfold State.decidedByLeave State.shadowEntry
  rw [State.raiseAll_plan, State.raiseAll_cal]
  rfl

/-- R73, R160: who is told in parts 1 to 3. -/
theorem State.leaveTold_att (s : State) (p q : Port) :
    (∀ r o, s.decidedByLeave p = some (r, o) → (s.leaveTold p).att.get q =
      if q ≠ p ∧ s.online q = true then
        (if q = r.proposer ∨ r.voters.get q = true then ((s.att.get q).raise .memberChange).raise .planDecided
          else (s.att.get q).raise .memberChange)
      else s.att.get q) ∧
    (s.decidedByLeave p = none → (s.leaveTold p).att.get q =
      if q ≠ p ∧ s.online q = true then (s.att.get q).raise .memberChange else s.att.get q) := by
  have att : (s.leaveTold p).att =
      (((s.setPort p .offline).raiseAll .memberChange (s.otherOnline p)).leavePlan p).att := rfl
  have same := s.leaveFirst_decidedByLeave p
  rw [att]
  refine ⟨fun r o decided => ?_, fun undecided => ?_⟩
  · rw [State.leavePlan_of_decided (same.trans decided), State.decidePlan_raises, State.leaveFirst_att]
    simp only [List.mem_filter, Port.mem_all, true_and, Bool.and_eq_true, Bool.or_eq_true, beq_iff_eq,
      State.leaveFirst_online, bne_iff_ne]
    by_cases told : q ≠ p ∧ s.online q = true
    · simp only [told, if_true, and_true, and_self, ne_eq, not_false_eq_true]
    · simp only [told, if_false, and_false]
  · rw [State.leavePlan_att_of_undecided (same.trans undecided), State.leaveFirst_att]

/-! ## What moves leave of the store and the reports -/

theorem Move.kept (move : Move s t) : t.mst.refusals = s.mst.refusals ∧ t.mst.pool = s.mst.pool ∧
    (s.online p = false → t.rpt.get p = s.rpt.get p) := by
  cases move with
  | beside _ changes =>
    rw [changes.mst (by simp), changes.rpt (by simp)]
    exact ⟨rfl, rfl, fun _ => rfl⟩
  | rewrites => exact ⟨rfl, rfl, fun _ => rfl⟩
  | ends d e =>
    cases found : s.desc d with
    | none =>
      rw [s.endMessage_free d e found]
      exact ⟨rfl, rfl, fun _ => rfl⟩
    | some m =>
      obtain ⟨_, _, _, _, _, refusals, pool, others, unposted, _⟩ := State.messageEnded found e
      refine ⟨refusals, pool, fun off => ?_⟩
      by_cases own : p = m.source
      · subst own
        rw [(unposted fun posted => by simp [off] at posted).1]
      · exact others p own

/-- The refusals, the pool and the reports of a port that is not ONLINE stand over moves. -/
theorem Moves.kept (moves : Moves s t) : t.mst.refusals = s.mst.refusals ∧ t.mst.pool = s.mst.pool ∧
    (s.online p = false → t.rpt.get p = s.rpt.get p) := by
  induction moves with
  | refl => exact ⟨rfl, rfl, fun _ => rfl⟩
  | tail moves move ih =>
    obtain ⟨refusals, pool, reports⟩ := ih
    obtain ⟨refusals', pool', reports'⟩ := move.kept (p := p)
    refine ⟨refusals'.trans refusals, pool'.trans pool, fun off => ?_⟩
    have members := Moves.mbc moves
    exact (reports' (by rwa [State.online, State.portState, members])).trans (reports off)

/-! ## Part 5: the receive state -/

theorem foldl_leaveSlot_slots (ns : List SlotId) (s : State) (k : SlotId) :
    (((ns.foldl (leaveSlot p) s).rx.get p).slots.at k).generation = ((s.rx.get p).slots.at k).generation ∧
    (k ∈ ns ∨ ((s.rx.get p).slots.at k).lease = none → (((ns.foldl (leaveSlot p) s).rx.get p).slots.at k).lease = none) := by
  induction ns generalizing s with
  | nil => exact ⟨rfl, fun free => free.resolve_left List.not_mem_nil⟩
  | cons n ns ih =>
    obtain ⟨generation, free⟩ := ih (leaveSlot p s n)
    have slot : ((leaveSlot p s n).rx.get p).slots.at k = if k = n ∧ ((s.rx.get p).slots.at n).lease.isSome then
        ((s.rx.get p).slots.at k).left else (s.rx.get p).slots.at k := by
      rw [leaveSlot_rx]
      by_cases held : ((s.rx.get p).slots.at n).lease.isSome = true
      · rw [if_pos ⟨rfl, held⟩, Rx.modSlot, Tbl.at_put]
        by_cases own : k = n <;> simp [own, held]
      · rw [if_neg fun both => held both.2, if_neg fun both => held both.2]
    rw [List.foldl_cons]
    refine ⟨generation.trans ?_, fun here => free ?_⟩
    · rw [slot]
      split <;> rfl
    · rw [slot]
      by_cases left : k = n ∧ ((s.rx.get p).slots.at n).lease.isSome
      · rw [if_pos left]
        exact .inr rfl
      · rw [if_neg left]
        rcases here with member | none
        · rcases List.mem_cons.1 member with rfl | later
          · exact .inr (by simpa using left)
          · exact .inl later
        · exact .inr none

theorem leaveQueue_rx (ds : List DescId) (s : State) (queue : (s.rx.get p).queue = ds) :
    OnlyAt p s.rx (leaveQueue p ds s).rx ∧ (leaveQueue p ds s).rx.get p = { s.rx.get p with queue := [] } := by
  induction ds generalizing s with
  | nil =>
    refine ⟨fun _ _ => rfl, ?_⟩
    change s.rx.get p = _
    rw [← queue]
  | cons d ds ih =>
    obtain ⟨others, own⟩ := ih _ (leaveHead_queue queue)
    refine ⟨fun q other => (others q other).trans ?_, own.trans ?_⟩
    · rw [State.settle_rx]
      exact (PerPort.get_modify ..).trans (if_neg other)
    · rw [State.settle_rx, State.modRx, PerPort.get_modify, if_pos rfl]

/-- R122: the receive state a leave leaves: nothing queued or leased, generations and counters kept. -/
theorem State.leaveReceive_rx (s : State) (p : Port) : OnlyAt p s.rx (s.leaveReceive p).rx ∧
    (s.leaveReceive p).rx.get p =
      { s.rx.get p with queue := [], slots := ((s.leaveReceive p).rx.get p).slots } ∧
    ∀ n, ((s.leaveReceive p).rx.get p).slots.at n = ⟨none, ((s.rx.get p).slots.at n).generation, none⟩ := by
  obtain ⟨slotsElsewhere, slots⟩ := foldl_leaveSlot_rx (p := p) (List.finRange 4) s
  have queue := congrArg Rx.queue slots
  obtain ⟨queueElsewhere, own⟩ := leaveQueue_rx _ _ queue
  rw [State.leaveReceive_eq]
  have rx : ((leaveQueue p (s.rx.get p).queue ((List.finRange 4).foldl (leaveSlot p) s)).modRx p Rx.clearEnds).rx.get p =
      ({ ((List.finRange 4).foldl (leaveSlot p) s).rx.get p with queue := [] } : Rx).clearEnds := by
    rw [State.modRx, PerPort.get_modify, if_pos rfl, own]
  refine ⟨fun q other => ?_, ?_, fun n => ?_⟩
  · refine (PerPort.get_modify ..).trans ((if_neg other).trans ?_)
    exact (queueElsewhere q other).trans (slotsElsewhere q other)
  · rw [rx, slots]
    rfl
  · obtain ⟨generation, free⟩ := foldl_leaveSlot_slots (p := p) (List.finRange 4) s n
    rw [rx, Rx.clearEnds, Tbl.at_map, generation, free (.inl (List.mem_finRange n))]

end

end Sys2Proof.Machine
end

section
/-! PROOFS. LEAVE and PORT_RESET as commands (10_membership_and_start_up.md, R160, R161, R163; Table 10-6). -/

namespace Sys2Proof.Machine

open Sys2Proof

section

variable {watch : Prop} {s t u : State} {p : Port} {l : LaneId} {d : DescId} {m : Desc} {n : SlotId} {ds : List DescId}

/-! ## What a leave leaves -/

/-- The parts of a leave after the first three, but for the reports of the port itself and the return to SETUP. -/
theorem moves_leaveTold (s : State) (p : Port) :
    Moves (s.leaveTold p) (((s.leaveTold p).leaveLanes p).leaveReceive p) :=
  (moves_leaveLanes _ p).trans (moves_leaveReceive _ p)

theorem State.leaveTold_online (s : State) (p : Port) : (s.leaveTold p).online p = false := by
  simp [State.online, State.portState, s.leaveTold_mbc p]

theorem State.leave_mst (s : State) (p : Port) :
    (s.leave p).mst = (((s.leaveTold p).leaveLanes p).leaveReceive p).mst := by
  rw [State.leave_eq, (State.endRunIfEmpty_changes _).mst (by simp)]
  rfl

theorem State.leave_rpt (s : State) (p : Port) : (s.leave p).rpt =
    (((s.leaveTold p).leaveLanes p).leaveReceive p).rpt.modify p fun t => { t with queue := [] } := by
  rw [State.leave_eq, (State.endRunIfEmpty_changes _).rpt (by simp)]
  rfl

theorem State.leave_att (s : State) (p : Port) :
    (s.leave p).att = (((s.leaveTold p).leaveLanes p).leaveReceive p).att := by
  rw [State.leave_eq, (State.endRunIfEmpty_changes _).att (by simp)]
  rfl

theorem State.leave_rx (s : State) (p : Port) :
    (s.leave p).rx = (((s.leaveTold p).leaveLanes p).leaveReceive p).rx := by
  rw [State.leave_eq, (State.endRunIfEmpty_changes _).rx (by simp)]
  rfl

/-- R160: MEMBER_CHANGE stays latched at the ports it was raised to. -/
theorem State.leave_told (s : State) (p q : Port) (other : q ≠ p) (online : s.online q = true) :
    EventSet.has ((s.leave p).att.get q).latched .memberChange = true := by
  have first : EventSet.has (((s.setPort p .offline).raiseAll .memberChange (s.otherOnline p)).att.get q).latched
      .memberChange = true := by
    rw [State.leaveFirst_att, if_pos ⟨other, online⟩]
    simp
  have after : TellsAll ((s.setPort p .offline).raiseAll .memberChange (s.otherOnline p))
      (((s.leaveTold p).leaveLanes p).leaveReceive p) := by
    have plan := tells_leavePlan ((s.setPort p .offline).raiseAll .memberChange (s.otherOnline p)) (tellsOnline_all _) p
    have told : TellsAll ((s.setPort p .offline).raiseAll .memberChange (s.otherOnline p)) (s.leaveTold p) :=
      plan.trans (.of_changes (State.leaveShadow_changes _ p) (by simp))
    exact (told.trans (tells_leaveLanes _ (tellsOnline_all _) p)).trans (tells_leaveReceive _ (tellsOnline_all _) p)
  rw [State.leave_att]
  exact after.latched first

/-- R122: the receive state of a port that left; the others' stand. -/
theorem State.leave_receives (s : State) (p : Port) : OnlyAt p s.rx (s.leave p).rx ∧
    (s.leave p).rx.get p = { s.rx.get p with queue := [], slots := ((s.leave p).rx.get p).slots } ∧
    ∀ n, ((s.leave p).rx.get p).slots.at n = ⟨none, ((s.rx.get p).slots.at n).generation, none⟩ := by
  have before : ((s.leaveTold p).leaveLanes p).rx = s.rx :=
    ((State.leaveLanes_changes _ p).rx (by simp)).trans ((s.leaveTold_changes p).rx (by simp))
  have left := ((s.leaveTold p).leaveLanes p).leaveReceive_rx p
  rw [before] at left
  rw [State.leave_rx]
  exact left

/-- R134, R160: the reports of a port that left are gone, and none was lost over it. -/
theorem State.leave_reports (s : State) (p : Port) : (s.leave p).rpt.get p = { s.rpt.get p with queue := [] } := by
  obtain ⟨_, _, reports⟩ := (moves_leaveTold s p).kept (p := p)
  rw [State.leave_rpt, PerPort.get_modify, if_pos rfl, reports (s.leaveTold_online p), (s.leaveTold_changes p).rpt (by simp)]

/-- R160, parts 1 to 6, where another port stays ONLINE. -/
theorem State.leave_stays (others : ∃ q, q ≠ p ∧ s.online q = true) :
    (s.leave p).inRun = s.inRun ∧ (s.leave p).timer = s.timer ∧ (s.leave p).cal.active = s.cal.active ∧
      (s.leave p).cal.activeBank = s.cal.activeBank ∧ (s.leave p).cal.shadow.header = s.cal.shadow.header ∧
      ∀ i, (s.leave p).shadowEntry i = if (s.shadowEntry i).owner = some p then ⟨none, none⟩ else s.shadowEntry i := by
  rw [State.leave_of_others s p others]
  refine ⟨State.inRun_congr ?_, s.leaveParted_timer p, ?_, ?_, ?_, fun i => ?_⟩
  · rw [State.leaveParted_mbc]
  · rw [State.leaveParted_cal, Cal.setShadow_active]
  · rw [State.leaveParted_cal, Cal.activeBank_setShadow]
  · rw [State.leaveParted_cal, Cal.shadow_setShadow]
  · rw [State.shadowEntry, State.leaveParted_cal, Cal.shadow_setShadow, Tbl.at_map]
    rfl

/-- R161: the last leave returns the exchange to SETUP. -/
theorem State.leave_returns (last : ∀ q, q ≠ p → s.online q = false) : (s.leave p).inRun = false ∧
    (s.leave p).timer = { s.timer with state := .stopped, nextSlot := none, syncOut := false, syncEnd := none } ∧
    (s.leave p).cal.active = s.cal.active ∧ ∀ bk, ((s.leave p).cal.bank bk).header = (s.cal.bank bk).header ∧
      ∀ i, ((s.leave p).cal.bank bk).entries.at i = ⟨none, none⟩ := by
  have active : (s.leaveParted p).cal.active = s.cal.active := by rw [State.leaveParted_cal, Cal.setShadow_active]
  have headers : ∀ bk, ((s.leaveParted p).cal.bank bk).header = (s.cal.bank bk).header := fun bk => by
    rw [State.leaveParted_cal, Cal.bank_setShadow]
    split
    next shadow => rw [shadow]; rfl
    · rfl
  rw [State.leave_of_last s p last]
  refine ⟨rfl, congrArg Timer.stop (s.leaveParted_timer p), active, fun bk => ?_⟩
  rw [← headers bk]
  cases bk
  · exact ⟨rfl, fun i => Tbl.at_fill _ i⟩
  · exact ⟨rfl, fun i => Tbl.at_fill _ i⟩

/-- R160, Table 10-6: what each block holds after a leave. -/
theorem State.leaves (s : State) (p : Port) : Leaves s (s.leave p) p := by
  have changes := s.leave_changes p
  obtain ⟨refusals, pool, _⟩ := (moves_leaveTold s p).kept (p := p)
  have mst := (s.leaveTold_changes p).mst (by simp)
  obtain ⟨ports, params, deadline⟩ := s.leave_ports p
  obtain ⟨elsewhere, rx, slots⟩ := s.leave_receives p
  have lane : ∀ l, (s.leave p).lane l =
      if (s.lane l).leavesWith p = true then { s.lane l with state := .closed, queue := [] } else s.lane l := fun l => by
    rw [State.lane, State.leave_lanes]
    exact s.lane_leaveParted p l
  have plan : (s.leave p).plan = s.planAfterLeave p := by
    rw [State.leave_eq, (State.endRunIfEmpty_changes _).plan (by simp), State.leaveParted_plan]
  refine ⟨changes.resetLow (by simp [leaveParts]), changes.refclk (by simp [leaveParts]), ?_, ?_, ports, params, deadline,
    (tells_leave s p).att_of_not (by simp), s.leave_told p, plan, fun l opened own => ?_, fun l apart => ?_, ?_, slots,
    ?_, ?_, ?_, s.leave_reports p, elsewhere, State.leave_stays, State.leave_returns⟩
  · rw [State.leave_mst, refusals, mst]
  · rw [State.leave_mst, pool, mst]
  · refine (lane l).trans (if_pos ?_)
    simp [Lane.leavesWith, opened, own]
  · refine (lane l).trans (if_neg ?_)
    simpa [Lane.leavesWith, or_iff_not_imp_left] using apart
  all_goals rw [rx]

/-- R38, R73, R122, R160: the messages and deliveries a leave ends, and who is told. -/
theorem State.leavesMessages (references : s.ReferencesLawful) (p : Port) : LeavesMessages s (s.leave p) p := by
  have told : (s.leaveTold p).Tracked False := by
    refine (State.referencesLawful_iff.1 references).of_limits (s.leaveTold_changes p) (by simp) fun q => ?_
    rw [State.params, s.leaveTold_mbc p]
    rfl
  have messages : s.laneMessages p = (s.leaveTold p).laneMessages p := by
    unfold State.laneMessages State.lane
    rw [(s.leaveTold_changes p).lanes (by simp)]
  have deliveries : s.references p = ((s.leaveTold p).leaveLanes p).references p := by
    unfold State.references
    rw [(State.leaveLanes_changes _ p).rx (by simp), (s.leaveTold_changes p).rx (by simp)]
  refine ⟨s.leaveTold p, (s.leaveTold p).leaveLanes p, ((s.leaveTold p).leaveLanes p).leaveReceive p,
    s.leaveTold_changes p, s.leaveTold_mbc p, fun q => ?_, ?_, ?_, s.leave_mst p, s.leave_att p, fun q other => ?_⟩
  · obtain ⟨decides, undecided⟩ := s.leaveTold_att p q
    cases decided : s.decidedByLeave p with
    | none => exact undecided decided
    | some ro => exact decides ro.1 ro.2 decided
  · rw [messages]
    exact messagesPurged_foldl_leaveLane (List.nodup_finRange 32) told
  · rw [deliveries]
    exact deliveriesAbandoned_leaveReceive told.leaveLanes
  · rw [State.leave_rpt, PerPort.get_modify, if_neg other]

end

theorem exec_leave (s : State) (p : Port) (b : List Byte) :
    exec (.leave p b) s = command (.leave p b) p s fun s => leave s p b := rfl

/-- Settles O20: the checks in order, and then the leave, part by part. -/
theorem leaveGivesUpEverything : Obligations.LeaveGivesUpEverything := by
  unfold Obligations.LeaveGivesUpEverything
  intro s p b ht
  have leaves := leave_act_eq s p b
  split
  next st failing => exact justAnswers_of_failing (exec_leave s p b) ht leaves failing
  next passing =>
    obtain ⟨runs, answers, _⟩ := answers_reply_of_act (exec_leave s p b) ht (leaves.trans (checked_of_none passing _))
      (s.leave_changes p) (by simp [leaveParts])
    exact ⟨_, runs, answers, s.leaves p, fun references => State.leavesMessages references p⟩

/-! ## PORT_RESET -/

section

variable {s : State} {p : Port}

theorem State.resetMembership_of_online (online : s.online p = true) : s.resetMembership p = s.leave p := by
  rw [State.resetMembership, (s.online_eq_true p).1 online]

/-- R163: a port that is not ONLINE loses at most its READY mark. -/
theorem State.resetMembership_of_offline (enabled : s.portState p ≠ .disabled) (off : s.online p = false) :
    s.resetMembership p = { s with mbc := { s.mbc with ports := s.mbc.ports.set p .offline } } := by
  unfold State.resetMembership
  cases state : s.portState p with
  | online => exact absurd state ((s.online_eq_false p).1 off)
  | ready => rfl
  | disabled => exact absurd state enabled
  | offline =>
    have same : s.mbc.ports.set p .offline = s.mbc.ports := PerPort.ext_get fun q => by
      rw [PerPort.get_set]
      split
      next own => rw [own]; exact state.symm
      · rfl
    rw [same]

theorem State.resetMembership_ports (enabled : s.portState p ≠ .disabled) :
    (s.resetMembership p).mbc = { (s.resetMembership p).mbc with
      ports := s.mbc.ports.set p .offline, params := s.mbc.params, deadline := s.mbc.deadline } := by
  cases online : s.online p with
  | true =>
    obtain ⟨ports, params, deadline⟩ := s.leave_ports p
    rw [State.resetMembership_of_online online, ← ports, ← params, ← deadline]
  | false => rw [State.resetMembership_of_offline enabled online]

/-- R163, step 2, R124, R177: the blocks that PORT_RESET clears after the membership part. -/
theorem State.resetPort_cleared (s : State) (p : Port) :
    ChangesOnly (s.resetMembership p) (s.resetPort p) [.link, .mst, .rx, .rpt, .att] := by
  refine ChangesOnly.comp ?_ ((State.modAtt_changes _ p _).mono (by simp))
  refine ChangesOnly.comp ?_ ((State.modLink_changes _ p _).mono (by simp))
  refine ChangesOnly.comp ?_ ((State.modRx_changes _ p _).mono (by simp))
  exact (State.clearBlockCounters_changes _ p).mono (by simp)

theorem State.resetPort_mst (s : State) (p : Port) : (s.resetPort p).mst =
    { (s.resetMembership p).mst with refusals := (s.resetMembership p).mst.refusals.set p ⟨0, 0, 0⟩ } := rfl

theorem State.resetPort_rpt (s : State) (p : Port) : (s.resetPort p).rpt =
    (s.resetMembership p).rpt.set p { (s.resetMembership p).rpt.get p with lost := 0 } := rfl

theorem State.resetPort_rx (s : State) (p q : Port) : (s.resetPort p).rx.get q = if q = p then
    ((s.resetMembership p).rx.get q).clearCounters.clearEnds else (s.resetMembership p).rx.get q := by
  refine (PerPort.get_modify ..).trans ?_
  split
  next own => exact congrArg Rx.clearEnds ((PerPort.get_modify ..).trans (if_pos own))
  next other => exact (PerPort.get_modify ..).trans (if_neg other)

theorem State.resetPort_att (s : State) (p q : Port) : (s.resetPort p).att.get q = if q = p then
    ((s.resetMembership p).att.get q).clearAll else (s.resetMembership p).att.get q := PerPort.get_modify ..

theorem Att.clearAll_eq (a : Att) : a.clearAll = ⟨0, 0, 0x7FF, none, a.nextSnapshot, false⟩ := by
  simp [Att.clearAll, Att.line, Att.attention, EventSet.defaultMask]

theorem State.resetMembership_link (s : State) (p : Port) : (s.resetMembership p).link = s.link := by
  refine resetMembership_keeps (law := fun u => u.link = s.link) rfl (fun _ => ?_) fun _ => rfl
  exact (s.leave_changes p).link (by simp [leaveParts])

/-- R160, R163: the leaver's attention state is its own to clear. -/
theorem State.resetMembership_att (s : State) (p : Port) : (s.resetMembership p).att.get p = s.att.get p := by
  refine resetMembership_keeps (law := fun u => u.att.get p = s.att.get p) rfl (fun _ => ?_) fun _ => rfl
  exact (tells_leave s p).att_of_not (by simp)

theorem State.resetPort_counters (s : State) (p : Port) : (s.resetPort p).counters p = List.replicate 10 0 := by
  unfold State.counters
  rw [State.resetPort_link, State.resetPort_mst, State.resetPort_rx, State.resetPort_rpt]
  simp [Link.clearRecord, Link.clearCounters, Rx.clearCounters, Rx.clearEnds]

end

theorem exec_portReset (s : State) (p : Port) (b : List Byte) :
    exec (.portReset p b) s = command (.portReset p b) p s fun s => portReset s p b := rfl

/-- Settles O21: the length check, and then the membership part and what the other blocks clear. -/
theorem portResetClearsPort : Obligations.PortResetClearsPort := by
  unfold Obligations.PortResetClearsPort
  intro s p b ht
  obtain ⟨_, enabled⟩ := State.live_of_takes rfl ht
  have resets := portReset_eq s p b
  refine ⟨fun long => ?_, fun empty => ?_⟩
  · exact justAnswers_of_failing (exec_portReset s p b) ht resets (by simp [firstFailing, long])
  · subst empty
    have ports := State.resetMembership_ports enabled
    have mbc := s.resetPort_mbc p
    have offline : byteOf ((s.resetPort p).portState p).code = 1 := by
      rw [State.portState, mbc, ports, PerPort.get_set, if_pos rfl]
      rfl
    have runs : exec (.portReset p []) s = .next ((s.resetPort p).answer p (.reply .ok [1])) := by
      rw [exec_portReset, command_takes ht, resets, checked_of_none rfl, ← offline]
      rfl
    obtain ⟨link, links⟩ := answers_answer (s.resetPort p) p (.reply .ok [1])
    have rx := (s.resetPort_rx p p).trans (if_pos rfl)
    refine ⟨s.resetMembership p, _, runs, ?_, rfl, rfl, fun q other => ?_, fun q other => ?_, s.resetMembership_link p,
      ?_, fun q other => ?_, ?_, ?_, ?_, ?_, ?_, ?_, fun n => ?_, ?_, ?_, ?_, fun online => ?_,
      State.resetMembership_of_offline enabled⟩
    · exact (s.resetPort_cleared p).comp ((State.answer_changes _ p _).mono (by simp))
    · exact (s.resetPort_rx p q).trans (if_neg other)
    · exact (s.resetPort_att p q).trans (if_neg other)
    · refine (s.resetPort_att p p).trans ((if_pos rfl).trans ?_)
      rw [Att.clearAll_eq, State.resetMembership_att]
    · rw [links q other, State.resetPort_link, PerPort.get_modify, if_neg other]
    · rw [link, State.resetPort_link, PerPort.get_modify, if_pos rfl]
      rfl
    iterate 4
      · rw [State.answer_rx, rx]
        rfl
    · rw [← State.resetPort_counters s p]
      unfold State.counters
      rw [link]
      rfl
    · rw [State.answer_rx, rx]
      exact Tbl.at_map ..
    · rw [State.answer_mbc, mbc, ports]
    · rw [State.answer_mbc, mbc, ports]
    · rw [State.answer_mbc, mbc, ports]
    · rw [State.resetMembership_of_online online]
      exact ⟨s.leaves p, fun references => State.leavesMessages references p⟩

end Sys2Proof.Machine
end

section
/-! PROOFS. The law of the receive state (07_receive_queues_and_leases.md, R92, R104, R106; 08_delivery_reports.md, R126,
R134): what a port may hold is its receive depth and 16 reports while it is ONLINE, and nothing while it is not. -/

namespace Sys2Proof.Machine

open Sys2Proof

/-! ## The law port by port -/

/-- How many deliveries a port may hold: its receive depth while it is ONLINE. -/
def State.room (s : State) (p : Port) : Nat := if s.online p then (s.params p).depth else 0

/-- How many reports may wait for a port: 16 while it is ONLINE. -/
def State.reportRoom (s : State) (p : Port) : Nat := if s.online p then reportCapacity else 0

/-- R92, R104: the deliveries of a port fit. -/
def State.QueueFits (s : State) (p : Port) : Prop := (s.rx.get p).occupancy ≤ s.room p

/-- R126, R134: the reports of a port fit. -/
def State.ReportsFit (s : State) (p : Port) : Prop := (s.rpt.get p).queue.length ≤ s.reportRoom p

section

variable {s t u : State} {p q : Port} {l : LaneId} {d : DescId} {m : Desc} {n : SlotId} {lease : Lease} {rest : List DescId}

theorem Rx.occupancy_eq_zero (r : Rx) : r.occupancy = 0 ↔ r.queue = [] ∧ ∀ n, (r.slots.at n).lease = none := by
  unfold Rx.occupancy Rx.heldSlots
  rw [Nat.add_eq_zero_iff, List.length_eq_zero_iff, List.countP_eq_zero]
  simp

/-- The law, in what each port may hold. -/
theorem State.receiveLawful_iff : s.ReceiveLawful ↔ ∀ p, s.QueueFits p ∧ s.ReportsFit p := by
  refine forall_congr' fun p => ?_
  have occupancy : (s.rx.get p).queue.length + (List.finRange 4).countP (fun n => ((s.rx.get p).slots.at n).lease.isSome) =
      (s.rx.get p).occupancy := rfl
  rw [occupancy]
  unfold State.QueueFits State.ReportsFit State.room State.reportRoom
  cases s.online p with
  | true => simp
  | false =>
    have empty := (s.rx.get p).occupancy_eq_zero
    simp only [forall_const, if_neg Bool.false_ne_true, Nat.le_zero, List.length_eq_zero_iff]
    rw [← and_assoc (c := (s.rpt.get p).queue = []), ← empty]
    refine ⟨fun ⟨_, _, idle, reports⟩ => ⟨idle, reports⟩, fun ⟨idle, reports⟩ => ⟨?_, ?_, idle, reports⟩⟩
    · rw [idle]; exact Nat.zero_le _
    · rw [reports]; exact Nat.zero_le _

/-- A port that is ONLINE stays so, with its receive depth. -/
def Stays (s t : State) (p : Port) : Prop := s.online p = true → t.online p = true ∧ (t.params p).depth = (s.params p).depth

theorem Stays.of_mbc (h : t.mbc = s.mbc) : Stays s t p := fun online => by
  unfold State.online State.portState State.params at *
  rw [h]
  exact ⟨online, rfl⟩

theorem Stays.room (h : Stays s t p) : s.room p ≤ t.room p ∧ s.reportRoom p ≤ t.reportRoom p := by
  unfold State.room State.reportRoom
  cases before : s.online p with
  | false => exact ⟨Nat.zero_le _, Nat.zero_le _⟩
  | true =>
    obtain ⟨online, depth⟩ := h before
    rw [online, depth]
    exact ⟨Nat.le_refl _, Nat.le_refl _⟩

theorem State.QueueFits.mono (h : s.QueueFits p) (stays : Stays s t p)
    (less : (t.rx.get p).occupancy ≤ (s.rx.get p).occupancy) : t.QueueFits p := (less.trans h).trans stays.room.1

theorem State.ReportsFit.mono (h : s.ReportsFit p) (stays : Stays s t p)
    (less : (t.rpt.get p).queue.length ≤ (s.rpt.get p).queue.length) : t.ReportsFit p := (less.trans h).trans stays.room.2

theorem State.QueueFits.of_rx (h : s.QueueFits p) (mbc : t.mbc = s.mbc) (rx : t.rx = s.rx) : t.QueueFits p :=
  h.mono (.of_mbc mbc) (by rw [rx])

/-! ## Reports -/

/-- R130, R131: a message end posts to a queue of an ONLINE port that is not full. -/
theorem Move.reportsFit (move : Move s t) (h : s.ReportsFit p) : t.ReportsFit p := by
  have stays : Stays s t p := .of_mbc move.mbc
  cases move with
  | beside _ changes => exact h.mono stays (by rw [changes.rpt (by simp)])
  | rewrites => exact h
  | ends d e =>
    cases found : s.desc d with
    | none => rwa [s.endMessage_free d e found]
    | some m =>
      obtain ⟨_, _, _, _, _, _, _, others, unposted, posted, lost⟩ := State.messageEnded found e
      by_cases own : p = m.source
      · subst own
        by_cases posts : (m.reportMode = .all ∨ (m.reportMode = .failures ∧ outcomeOf m e ≠ .complete)) ∧
            s.online m.source = true
        · rcases Nat.lt_or_ge (s.rpt.get m.source).queue.length 16 with room | full
          · refine Nat.le_trans ?_ stays.room.2
            rw [(posted posts room).1, State.reportRoom, if_pos posts.2, List.length_append]
            exact room
          · exact h.mono stays (by rw [(lost posts full).1])
        · exact h.mono stays (by rw [(unposted posts).1])
      · exact h.mono stays (by rw [others p own])

theorem Moves.reportsFit (moves : Moves s t) (h : s.ReportsFit p) : t.ReportsFit p :=
  moves.keeps (law := fun s => s.ReportsFit p) (fun _ _ move => move.reportsFit) h

/-! ## Deliveries -/

theorem Rx.heldSlots_update {r r' : Rx} (others : OnlyAtIndex n r.slots r'.slots) :
    r'.heldSlots + (if (r.slots.at n).lease.isSome then 1 else 0) =
      r.heldSlots + if (r'.slots.at n).lease.isSome then 1 else 0 :=
  countP_update (f := fun n => (r.slots.at n).lease.isSome) (g := fun n => (r'.slots.at n).lease.isSome)
    (List.nodup_finRange 4) (List.mem_finRange n) fun k other => by rw [others k other]

/-- R107: a released message is queued only where there is room. -/
theorem State.QueueFits.commit (h : s.QueueFits p) (l : LaneId) (d : DescId) (m : Desc) (st : Stamp) :
    (s.commit l d m st).QueueFits p := by
  have rx := s.commit_rx l d m st p
  have stays : Stays s (s.commit l d m st) p := .of_mbc ((s.commit_changes l d m st).mbc (by simp [passParts]))
  by_cases queued : p ∈ s.queuedAt m
  · refine Nat.le_trans ?_ stays.room.1
    obtain ⟨_, room⟩ := (s.mem_queuedAt p m).1 queued
    obtain ⟨online, room⟩ := Bool.and_eq_true_iff.1 room
    have less := of_decide_eq_true room
    rw [rx, if_pos queued, State.room, if_pos online, Rx.occupancy, List.length_append]
    rw [Rx.occupancy] at less
    change _ + 1 + (s.rx.get p).heldSlots ≤ _
    omega
  · refine h.mono stays ?_
    rw [rx, if_neg queued]
    exact Nat.le_refl _

theorem State.QueueFits.passLoop (settings : LaneSettings) (st : Stamp) (ds : List DescId) (left : Nat) (any : Bool)
    (h : s.QueueFits p) : (passLoop l settings st ds left any s).QueueFits p := by
  induction ds generalizing s left any with
  | nil =>
    cases left with
    | zero => exact h
    | succ left =>
      cases any with
      | true => exact h
      | false => exact h.of_rx rfl rfl
  | cons d ds ih =>
    cases left with
    | zero => exact h
    | succ left =>
      cases found : s.desc d with
      | none =>
        rw [Machine.passLoop, found]
        exact ih _ _ (h.of_rx rfl rfl)
      | some m =>
        rw [passLoop_cons found]
        split
        · refine ih _ _ (h.of_rx ((s.discardStale_changes l d).mbc (by simp [passParts])) ?_)
          exact (State.endMessage_rx ..)
        · split
          · exact h.of_rx rfl rfl
          · exact ih _ _ (h.commit l d m st)

theorem State.QueueFits.drained (h : s.QueueFits p) (l : LaneId) (owner : Port) : (s.drained l owner).QueueFits p := by
  unfold State.drained
  split
  · exact h.of_rx rfl rfl
  · exact h

theorem State.QueueFits.releasePass (h : s.QueueFits p) : s.releasePass.QueueFits p := by
  unfold State.releasePass State.passLane
  split
  · exact h
  · split
    · exact h
    · split
      · exact h
      · exact (h.passLoop _ _ _ _ _).drained _ _

/-- R115: a lease that ends leaves no more than it found. -/
theorem occupancy_endLease (held : ((s.rx.get p).slots.at n).lease = some lease) (c : EndCause) :
    ((s.rx.get p).modSlot n (LeaseSlot.ended c)).occupancy + 1 = (s.rx.get p).occupancy := by
  have slots := Rx.heldSlots_update (r := s.rx.get p) (r' := (s.rx.get p).modSlot n (LeaseSlot.ended c)) (n := n)
    fun k other => by rw [Rx.modSlot, Tbl.at_put, if_neg other]
  have freed : (((s.rx.get p).modSlot n (LeaseSlot.ended c)).slots.at n).lease = none := by
    rw [Rx.modSlot, Tbl.at_put, if_pos rfl]
    rfl
  rw [held, freed] at slots
  change (s.rx.get p).queue.length + _ + 1 = (s.rx.get p).queue.length + _
  simp only [Option.isSome_some, Option.isSome_none, Bool.false_eq_true, if_true, if_false] at slots
  omega

end

end Sys2Proof.Machine
end

section
/-! PROOFS. Every command and happening keeps what a port holds within its room (07_receive_queues_and_leases.md, R92, R104,
R106; 08_delivery_reports.md, R126, R134). -/

namespace Sys2Proof.Machine

open Sys2Proof

/-- R92, R104, R126, R134: what every port holds fits. -/
def State.Fits (s : State) : Prop := ∀ p, s.QueueFits p ∧ s.ReportsFit p

section

variable {s t u : State} {p q : Port} {l : LaneId} {d : DescId} {m : Desc} {n : SlotId} {lease : Lease} {rest : List DescId}
  {c : EndCause} {pos : Position}

/-! ## Changes that add nothing -/

theorem State.Fits.of_stays (h : s.Fits) (stays : ∀ p, Stays s t p) (rx : t.rx = s.rx) (rpt : t.rpt = s.rpt) : t.Fits :=
  fun p => ⟨(h p).1.mono (stays p) (by rw [rx]), (h p).2.mono (stays p) (by rw [rpt])⟩

theorem State.Fits.of_changes (h : s.Fits) {parts : List Part} (changes : ChangesOnly s t parts)
    (apart : ∀ x ∈ parts, x ∉ [Part.rx, .rpt, .mbc]) : t.Fits := by
  have same : ∀ x, x ∈ [Part.rx, .rpt, .mbc] → x.same s t := fun x watched =>
    changes x fun named => apart x named watched
  exact h.of_stays (fun p => .of_mbc (same .mbc (by simp))) (same .rx (by simp)) (same .rpt (by simp))

theorem fits_reads : ReadsOnly State.Fits [.rx, .rpt, .mbc] := fun s t same h =>
  h.of_stays (fun p => .of_mbc (same .mbc (by simp))) (same .rx (by simp)) (same .rpt (by simp))

/-- Moves that leave one port's receive state alone changed, and no fuller. -/
theorem State.Fits.moved (h : s.Fits) (moves : Moves s t) (others : OnlyAt p s.rx t.rx)
    (here : (t.rx.get p).occupancy ≤ (s.rx.get p).occupancy) : t.Fits := fun q => by
  refine ⟨(h q).1.mono (.of_mbc moves.mbc) ?_, moves.reportsFit (h q).2⟩
  by_cases own : q = p
  · exact own ▸ here
  · rw [others q own]

/-! ## Leases -/

/-- R108: a delivery put in a queue fills one more place, at its port alone. -/
theorem enqueue_occupancy (s : State) (p : Port) (d : DescId) (pos : Position) : OnlyAt p s.rx (s.enqueue p d pos).rx ∧
    ((s.enqueue p d pos).rx.get p).occupancy = (s.rx.get p).occupancy + 1 := by
  rw [State.enqueue_eq]
  refine ⟨fun q other => (PerPort.get_modify ..).trans (if_neg other), ?_⟩
  rw [PerPort.get_modify, if_pos rfl, Rx.occupancy, Rx.occupancy]
  cases pos with
  | head => exact Nat.add_right_comm _ 1 _
  | tail =>
    rw [List.length_append]
    exact Nat.add_right_comm _ 1 _

/-- R116: a lease that ends without ACK leaves no more than it found. -/
theorem endWithoutAck_occupancy (held : ((s.rx.get p).slots.at n).lease = some lease) (d : DescId) :
    OnlyAt p s.rx (s.endWithoutAck p n d c pos).rx ∧
      ((s.endWithoutAck p n d c pos).rx.get p).occupancy ≤ (s.rx.get p).occupancy := by
  have freed := occupancy_endLease held c
  have rx : ∀ q, (s.endLease p n c).rx.get q =
      if q = p then (s.rx.get q).modSlot n (LeaseSlot.ended c) else s.rx.get q := fun q => PerPort.get_modify ..
  unfold State.endWithoutAck
  dsimp only
  split
  · have given : ((s.endLease p n c).giveUp p d).rx = (s.endLease p n c).rx.modify p fun r =>
        { r with deliveriesExpired := bump r.deliveriesExpired } := State.settle_rx ..
    rw [given]
    refine ⟨fun q other => ?_, ?_⟩
    · rw [PerPort.get_modify, if_neg other, rx, if_neg other]
    · rw [PerPort.get_modify, if_pos rfl, rx, if_pos rfl]
      exact (Nat.le_succ _).trans freed.le
  · have kept : ((s.endLease p n c).setDelivery d p .queued).rx = (s.endLease p n c).rx :=
      (State.setDelivery_changes _ d p _).rx (by simp)
    obtain ⟨others, own⟩ := enqueue_occupancy ((s.endLease p n c).setDelivery d p .queued) p d pos
    rw [kept] at others own
    refine ⟨fun q other => (others q other).trans ((rx q).trans (if_neg other)), ?_⟩
    rw [own, rx, if_pos rfl]
    exact freed.le

theorem State.Fits.endWithoutAck (h : s.Fits) (held : ((s.rx.get p).slots.at n).lease = some lease) (d : DescId) :
    (s.endWithoutAck p n d c pos).Fits := by
  obtain ⟨others, here⟩ := endWithoutAck_occupancy (c := c) (pos := pos) held d
  exact h.moved (moves_endWithoutAck s p n d c pos) others here

theorem State.Fits.expire (h : s.Fits) (held : ((s.rx.get p).slots.at n).lease = some lease) : (s.expire p n lease).Fits := by
  have rx : ∀ q, (s.expiring p lease).rx.get q =
      if q = p then { s.rx.get q with leaseExpiries := bump (s.rx.get q).leaseExpiries } else s.rx.get q := fun q =>
    PerPort.get_modify ..
  have expiring : (s.expiring p lease).Fits := by
    refine h.moved (p := p) (.of_changes (s.expiring_changes p lease) (by simp))
      (fun q other => (rx q).trans (if_neg other)) ?_
    rw [rx, if_pos rfl]
    exact Nat.le_refl _
  rw [State.expire_eq]
  exact expiring.endWithoutAck (by rw [State.expiring_rx]; exact held) lease.desc

theorem State.Fits.ack (h : s.Fits) (held : ((s.rx.get p).slots.at n).lease = some lease) :
    ((s.endLease p n .settled).settle lease.desc p .delivered).Fits := by
  have freed := occupancy_endLease held .settled
  refine h.moved (p := p) ((moves_endLease s p n .settled).trans (moves_settle _ lease.desc p .delivered)) (fun q other => ?_) ?_
  all_goals rw [State.settle_rx, State.endLease_rx, PerPort.get_modify]
  · rw [if_neg other]
  · rw [if_pos rfl]
    exact (Nat.le_succ _).trans freed.le

/-- R111: a lease takes the place of the delivery at the head of the queue. -/
theorem State.Fits.grantLease (h : s.Fits) (free : ((s.rx.get p).slots.at n).lease = none)
    (queue : (s.rx.get p).queue = d :: rest) : (s.grantLease p n d).Fits := by
  have rx : ∀ q, (s.grantLease p n d).rx.get q = if q = p then
      { (s.rx.get q).modSlot n (LeaseSlot.granted ⟨d, s.leaseDeadline p⟩) with queue := (s.rx.get q).queue.tail }
      else s.rx.get q := fun q => by
    unfold State.grantLease State.modDesc
    split <;> exact PerPort.get_modify ..
  refine h.moved (moves_grantLease s p n d) (fun q other => (rx q).trans (if_neg other)) ?_
  have slots := Rx.heldSlots_update (r := s.rx.get p) (n := n)
    (r' := (s.rx.get p).modSlot n (LeaseSlot.granted ⟨d, s.leaseDeadline p⟩))
    fun k other => by rw [Rx.modSlot, Tbl.at_put, if_neg other]
  have granted : (((s.rx.get p).modSlot n (LeaseSlot.granted ⟨d, s.leaseDeadline p⟩)).slots.at n).lease =
      some ⟨d, s.leaseDeadline p⟩ := by
    rw [Rx.modSlot, Tbl.at_put, if_pos rfl]
    rfl
  rw [free, granted] at slots
  simp only [Option.isSome_some, Option.isSome_none, Bool.false_eq_true, if_true, if_false] at slots
  rw [rx, if_pos rfl, Rx.occupancy, Rx.occupancy, queue]
  change rest.length + ((s.rx.get p).modSlot n _).heldSlots ≤ rest.length + 1 + _
  omega

/-! ## Members -/

theorem State.Fits.setPort (h : s.Fits) {st : PortState} (member : s.portState p = .online → st = .online) :
    (s.setPort p st).Fits := by
  refine h.of_stays (fun q online => ⟨?_, rfl⟩) rfl rfl
  rw [State.online_eq_true] at online ⊢
  rw [State.portState_setPort]
  split
  next own => exact member (own ▸ online)
  · exact online

theorem State.Fits.markReady (h : s.Fits) : (s.markReady p).Fits := by
  unfold State.markReady
  split
  next off => exact h.setPort fun online => PortState.noConfusion (off.symm.trans online)
  · exact h

theorem State.Fits.releasePass (h : s.Fits) : s.releasePass.Fits := fun p =>
  ⟨(h p).1.releasePass, (moves_releasePass s).reportsFit (h p).2⟩

/-- R157: the start of RUN makes ports ONLINE that held nothing. -/
theorem State.Fits.startRun (h : s.Fits) : s.startRun.Fits := by
  have started : State.Fits { s with mbc := s.mbc.start } := by
    refine h.of_stays (fun q online => ⟨?_, rfl⟩) rfl rfl
    rw [State.online_eq_true] at online ⊢
    rw [State.portState]
    refine (PerPort.get_ofFn _ q).trans ?_
    split
    · rfl
    · exact online
  unfold State.startRun State.startTimer
  refine State.Fits.releasePass (started.of_changes (parts := [.att, .cal, .timer, .plan]) ?_ (by simp))
  refine ChangesOnly.comp ?_ ((State.scheduleNext_changes _ _).mono (by simp))
  refine ChangesOnly.comp ?_ ((State.boundary_changes _ _).mono (by simp))
  refine ChangesOnly.comp ?_ ((timer_changes _ _).mono (by simp))
  exact ((State.raiseAll_changes _ _ _).mono (by simp)).comp ((State.copyHeader_changes _).mono (by simp))

/-- R122, R134, R160: a port that left holds nothing; the others hold what they did, and reports of messages that ended. -/
theorem State.Fits.leave (h : s.Fits) : (s.leave p).Fits := fun q => by
  obtain ⟨elsewhere, own, slots⟩ := s.leave_receives p
  by_cases leaver : q = p
  · subst leaver
    have occupancy : ((s.leave q).rx.get q).occupancy = 0 := by
      rw [Rx.occupancy_eq_zero]
      exact ⟨congrArg Rx.queue own, fun n => congrArg LeaseSlot.lease (slots n)⟩
    refine ⟨?_, ?_⟩
    · rw [State.QueueFits, occupancy]
      exact Nat.zero_le _
    · rw [State.ReportsFit, State.leave_reports]
      exact Nat.zero_le _
  · have params : (s.leave p).params q = s.params q := State.params_congr (s.leave_ports p).2.1 q
    have stays : Stays s (s.leave p) q := fun online => by
      rw [State.online_eq_true] at online ⊢
      rw [State.leave_portState, if_neg leaver]
      exact ⟨online, congrArg Params.depth params⟩
    refine ⟨(h q).1.mono stays (by rw [elsewhere q leaver]), ?_⟩
    have states : (s.leaveTold p).portState q = s.portState q := by
      rw [State.portState, s.leaveTold_mbc p]
      exact (PerPort.get_set ..).trans (if_neg leaver)
    have told : (s.leaveTold p).ReportsFit q := by
      refine (h q).2.mono (fun online => ⟨?_, ?_⟩) (by rw [(s.leaveTold_changes p).rpt (by simp)])
      · rwa [State.online, states]
      · rw [State.params, s.leaveTold_mbc p]
        rfl
    have received := (moves_leaveTold s p).reportsFit told
    have room : (((s.leaveTold p).leaveLanes p).leaveReceive p).reportRoom q = (s.leave p).reportRoom q := by
      unfold State.reportRoom State.online
      rw [State.leave_portState, if_neg leaver, ← states, State.portState, (moves_leaveTold s p).mbc]
      rfl
    rw [State.ReportsFit, State.leave_rpt, PerPort.get_modify, if_neg leaver, ← room]
    exact received

theorem State.Fits.resetMembership (h : s.Fits) : (s.resetMembership p).Fits :=
  resetMembership_keeps h (fun _ => h.leave) fun marked => h.setPort fun online =>
    PortState.noConfusion (marked.symm.trans online)

theorem State.Fits.clearBlockCounters (h : s.Fits) : (s.clearBlockCounters p).Fits := fun q => by
  have rx : (s.clearBlockCounters p).rx.get q = if q = p then (s.rx.get q).clearCounters else s.rx.get q :=
    PerPort.get_modify ..
  have rpt : (s.clearBlockCounters p).rpt.get q = if q = p then (s.rpt.get q).clearLost else s.rpt.get q :=
    PerPort.get_modify ..
  refine ⟨(h q).1.mono (.of_mbc rfl) ?_, (h q).2.mono (.of_mbc rfl) ?_⟩
  · rw [rx]
    split <;> exact Nat.le_refl _
  · rw [rpt]
    split <;> exact Nat.le_refl _

theorem Rx.occupancy_clearEnds (r : Rx) : r.clearEnds.occupancy = r.occupancy := by
  have held : r.clearEnds.heldSlots = r.heldSlots := List.countP_congr fun n _ => by simp [Rx.clearEnds]
  exact congrArg (r.queue.length + ·) held

theorem State.Fits.resetPort (h : s.Fits) : (s.resetPort p).Fits := fun q => by
  have member := h.resetMembership (p := p)
  have stays : Stays (s.resetMembership p) (s.resetPort p) q := .of_mbc (s.resetPort_mbc p)
  refine ⟨(member q).1.mono stays ?_, (member q).2.mono stays ?_⟩
  · rw [State.resetPort_rx]
    split
    · exact (Rx.occupancy_clearEnds _).le
    · exact Nat.le_refl _
  · rw [State.resetPort_rpt, PerPort.get_set]
    split
    next own => rw [own]
    · exact Nat.le_refl _

/-- R132: GET_REPORT leaves one record less. -/
theorem State.Fits.takeOldest (h : s.Fits) : (s.takeOldest p (s.rpt.get p).queue).1.Fits := by
  cases queue : (s.rpt.get p).queue with
  | nil => exact h
  | cons r rest =>
    intro q
    have rpt : ((s.modRpt p fun t => { t with queue := rest }).rpt.get q) =
        if q = p then { s.rpt.get q with queue := rest } else s.rpt.get q := PerPort.get_modify ..
    refine ⟨(h q).1, (h q).2.mono (.of_mbc rfl) ?_⟩
    change ((s.modRpt p fun t => { t with queue := rest }).rpt.get q).queue.length ≤ _
    rw [rpt]
    split
    next own =>
      rw [own, queue]
      exact Nat.le_succ _
    · exact Nat.le_refl _

theorem fits_of_empty (rx : ∀ p, (s.rx.get p).queue = [] ∧ ∀ n, ((s.rx.get p).slots.at n).lease = none)
    (rpt : ∀ p, (s.rpt.get p).queue = []) : s.Fits := fun p => by
  refine ⟨?_, ?_⟩
  · rw [State.QueueFits, (Rx.occupancy_eq_zero _).2 (rx p)]
    exact Nat.zero_le _
  · rw [State.ReportsFit, rpt p]
    exact Nat.zero_le _

/-! ## Every command and happening -/

theorem fits_exec {i : Instr} (touched : touches i [.rx, .rpt, .mbc] = true) (members : s.MembershipLawful)
    (h : s.Fits) (runs : exec i s = .next t) : t.Fits := by
  have command : ∀ {p code b}, i.command? = some (p, code, b) → (actOf i s).1.Fits → t.Fits :=
    fun named act => fits_reads.exec_command (by simp) named runs h fun _ => act
  have written : ∀ u, SetupWritten s u → u.Fits := fun u w =>
    h.of_stays (fun q online => Bool.noConfusion (online.symm.trans (members.1 w.setup q))) (w.changes.rx (by simp))
      (w.changes.rpt (by simp))
  cases i with
  | resetNRelease straps =>
    cases runs
    refine fits_of_empty (fun p => ?_) fun p => ?_
    · rw [PerPort.get_fill]
      exact ⟨rfl, fun n => congrArg LeaseSlot.lease (Tbl.at_fill _ n)⟩
    · rw [PerPort.get_fill]
      rfl
  | slotStart =>
    exact slotStart_keeps runs h fun due _ _ _ => State.Fits.releasePass (h.of_changes (s.slotBegun_changes due) (by simp))
  | leaseExpiry p n => exact leaseExpiry_keeps runs h fun l held => h.expire held
  | readCounters p b =>
    obtain ⟨q, named⟩ := exists_port b
    refine command rfl ?_
    rw [actOf, readCounters_eq s p named]
    refine checked_keeps h fun _ => ?_
    by_cases keep : byteAt b 1 = 0
    · simpa only [reply, if_pos keep] using h
    · simp only [reply, if_neg keep]
      exact h.clearBlockCounters.of_changes (State.modLink_changes _ p _) (by simp)
  | setQuota p b => exact command rfl (setupWrites_keep h written (.inl ⟨p, b, rfl⟩))
  | setRxq p b => exact command rfl (setupWrites_keep h written (.inr (.inl ⟨p, b, rfl⟩)))
  | setLease p b => exact command rfl (setupWrites_keep h written (.inr (.inr (.inl ⟨p, b, rfl⟩))))
  | setDeadline p b => exact command rfl (setupWrites_keep h written (.inr (.inr (.inr ⟨p, b, rfl⟩))))
  | setFrame p b =>
    refine command rfl (setFrame_keeps h (fun u _ h => ?_) fun hd _ _ => h.of_changes (s.setShadowHeader_changes hd) (by simp))
    refine h.of_stays (fun q online => ⟨?_, congrArg Params.depth (u.params_clearReady q)⟩)
      (u.clearReady_changes.rx (by simp)) (u.clearReady_changes.rpt (by simp))
    rw [State.online_eq_true] at online ⊢
    rw [u.clearReady_portState, online, if_neg (by simp)]
  | send p b =>
    refine command rfl (send_keeps h (fun f => ?_) fun _ l st d a _ _ _ _ _ _ _ _ _ _ => ?_)
    · exact h.of_changes (s.modRefusals_changes p f) (by simp)
    · exact h.of_changes (s.submitted_changes d a) (by simp)
  | fetch p b => exact command rfl (fetch_keeps h fun _ n d rest free queue => h.grantLease free queue)
  | ack p b => exact command rfl (ack_keeps h fun _ n l held => h.ack held)
  | returnLease p b => exact command rfl (returnLease_keeps h fun _ n l pos held => h.endWithoutAck held l.desc)
  | purgeLane p b =>
    refine command rfl (purgeLane_keeps h fun l _ => fun q => ⟨?_, (moves_purgeClose s l).reportsFit (h q).2⟩)
    have changes : ChangesOnly s (s.purgeClose l) [.lanes, .mst, .rpt, .att] :=
      ((s.purge_changes l).mono (by simp)).comp ((s.purgeClose_changes l).mono (by simp))
    exact (h q).1.of_rx (changes.mbc (by simp)) (changes.rx (by simp))
  | ready p b => exact command rfl (ready_keeps h (fun _ => h.markReady) fun _ _ => h.markReady.startRun)
  | unready p b =>
    exact command rfl (unready_keeps h fun _ => h.setPort fun online => by rw [online]; rfl)
  | join p b =>
    exact command rfl (join_keeps h fun _ _ =>
      (h.setPort fun _ => rfl).of_changes (State.raiseAll_changes _ _ _) (by simp))
  | leave p b => exact command rfl (leave_keeps h fun _ _ => h.leave)
  | portReset p b => exact command rfl (portReset_keeps h h.resetPort)
  | getReport p b =>
    refine command rfl ?_
    rw [actOf, getReport_eq]
    exact checked_keeps h fun _ => h.takeOldest
  | _ => exact (Bool.false_ne_true touched).elim

theorem State.fits_iff : s.ReceiveLawful ↔ s.Fits := State.receiveLawful_iff

end

/-- Settles O56: a command or happening adds to a receive state or a report queue only where there is room. -/
theorem stepKeepsReceiveLawful : Obligations.StepKeepsReceiveLawful := by
  unfold Obligations.StepKeepsReceiveLawful
  intro s t members h runs
  have fits := State.fits_iff.1 h
  refine State.fits_iff.2 ?_
  rcases step_cases runs with ⟨i, rest, runs⟩ | ⟨q, n, now, rfl⟩
  · have queued : (s.withPending rest).Fits := fits_reads s (s.withPending rest) (by simp [Part.same]) fits
    cases touched : touches i [.rx, .rpt, .mbc] with
    | true => exact fits_exec (s := s.withPending rest) touched members queued runs
    | false => exact fits_reads.exec_untouched touched runs queued
  · exact fits_reads s _ (by simp [Part.same]) fits

end Sys2Proof.Machine
end

section
/-! PROOFS. The laws together: the state after reset meets them all, and a lawful SETUP holds no message
(10_membership_and_start_up.md, 10.1; 01_message_store.md, R19). -/

namespace Sys2Proof.Machine

open Sys2Proof

/-! ## The state after reset -/

theorem attentionLawful_reset : State.reset.AttentionLawful := by
  refine (State.attentionLawful_iff_sound rfl).2 fun p => ?_
  rw [State.reset, PerPort.get_fill]
  exact ⟨rfl, rfl, by decide, by rintro _ ⟨⟩⟩

theorem quotaLawful_reset : State.reset.QuotaLawful :=
  quotaLawful_of_empty (Mst.reset_free_length _) (fun p => PerPort.get_fill 0 p) (Nat.zero_le 512)

theorem entriesLawful_reset : State.reset.EntriesLawful := entriesLawful_of_unowned fun bk i => by
  cases bk
  · exact Tbl.at_fill _ i
  · exact Tbl.at_fill _ i

theorem lanesLawful_reset : State.reset.LanesLawful := State.lanesLawful_iff.2 fun l => by
  have lane : (Tbl.fill 32 Lane.reset).at l = Lane.reset := Tbl.at_fill _ l
  exact Lane.lawfulIn_closed _ (congrArg Lane.state lane) (congrArg Lane.queue lane)

theorem receiveLawful_reset : State.reset.ReceiveLawful := by
  refine State.fits_iff.2 (fits_of_empty (fun p => ?_) fun p => ?_)
  all_goals rw [State.reset, PerPort.get_fill]
  · exact ⟨rfl, fun n => congrArg LeaseSlot.lease (Tbl.at_fill _ n)⟩
  · rfl

theorem linkLawful_reset (p : Port) : State.reset.LinkLawful p := by
  rw [linkLawful_iff, State.reset, PerPort.get_fill]
  exact ⟨fun _ => rfl, fun _ _ => rfl, by simp [Link.Sound, Link.reset]⟩

/-- Settles O59: each law holds of the reset values. -/
theorem resetIsLawful : Obligations.ResetIsLawful where
  params := paramsLawful_reset (PerPort.fill true) rfl
  membership := membershipLawful_reset (PerPort.fill true) rfl
  attention := attentionLawful_reset
  store := storeLawful_of_reset (pool := []) rfl rfl fun _ named => absurd named List.not_mem_nil
  quota := quotaLawful_reset
  entries := entriesLawful_reset
  plan := planLawful_of_none (by simp [State.reset, Plan.reset]) (by simp [State.reset, Mbc.reset]) rfl
  timer := timerLawful_reset rfl rfl rfl
  lanes := lanesLawful_reset
  receive := receiveLawful_reset
  references := (tracked_reset (watch := False) (s := State.reset) rfl rfl rfl).references
  attempts := (State.tracked_true_iff.1 (tracked_reset (s := State.reset) rfl rfl rfl)).2
  links := linkLawful_reset

/-! ## A lawful SETUP -/

section

variable {s : State}

/-- Where no port is ONLINE, no list names a message. -/
theorem State.lists_empty (lanes : s.LanesLawful) (receive : s.ReceiveLawful) (offline : ∀ p, s.online p = false) :
    (∀ l, (s.lane l).queue = []) ∧
      ∀ p, (s.rx.get p).queue = [] ∧ ∀ n, ((s.rx.get p).slots.at n).lease = none := by
  refine ⟨fun l => ?_, fun p => ?_⟩
  · obtain ⟨closed, _, held⟩ := lanes l
    by_cases state : (s.lane l).state = .closed
    · exact closed state
    · obtain ⟨st, _, online, _⟩ := held state
      exact Bool.noConfusion ((offline st.owner).symm.trans online)
  · obtain ⟨_, _, empty⟩ := receive p
    obtain ⟨queue, leases, _⟩ := empty (offline p)
    exact ⟨queue, leases⟩

/-- A descriptor that no list names is FREE. -/
theorem State.ReferencesLawful.free (h : s.ReferencesLawful) (lanes : ∀ l, (s.lane l).queue = [])
    (ports : ∀ p, (s.rx.get p).queue = [] ∧ ∀ n, ((s.rx.get p).slots.at n).lease = none) (d : DescId) :
    s.desc d = none := by
  obtain ⟨_, accounts⟩ := h d
  cases found : s.desc d with
  | none => rfl
  | some m =>
    obtain ⟨pending, released⟩ := accounts m found
    exfalso
    cases state : m.state with
    | pending =>
      obtain ⟨once, _⟩ := pending state
      have one := once m.lane
      rw [State.laneRefs, lanes, if_pos rfl] at one
      exact Nat.zero_ne_one one
    | released =>
      obtain ⟨_, refs, _, active, outstanding, _⟩ := released state
      rw [outstanding] at active
      obtain ⟨p, _, counts⟩ := List.countP_pos_iff.1 active
      obtain ⟨queue, slot⟩ := refs p
      have noQueue : s.queueRefs p d = 0 := by
        rw [State.queueRefs, (ports p).1]
        rfl
      have noSlot : s.slotRefs p d = 0 := List.countP_eq_zero.2 fun n _ => by
        rw [LeaseSlot.holds_of_free ((ports p).2 n)]
        exact Bool.false_ne_true
      rw [noQueue] at queue
      rw [noSlot] at slot
      cases delivery : m.delivery.get p <;> simp [delivery, Delivery.isOutstanding] at counts queue slot

end

/-- Settles O60: with no port ONLINE no list names a descriptor, so every one is FREE, and every buffer with it. -/
theorem lawfulSetupHoldsNoMessage : Obligations.LawfulSetupHoldsNoMessage := by
  unfold Obligations.LawfulSetupHoldsNoMessage
  intro s h setup
  obtain ⟨lanes, ports⟩ := State.lists_empty h.lanes h.receive (h.membership.1 setup)
  have empty := h.references.free lanes ports
  exact ⟨empty, h.store.of_empty empty⟩

end Sys2Proof.Machine
end
